-- ==== Sys2Proof/Word.lean ====
section
/-! DEFINITION. The word types of RCSW-CORE and their readings as integers (00_scope.md R7, R10). -/

namespace Sys2Proof

/-- A 32-bit register, MMIO word or argument (`INT_W` = 32, R7). -/
abbrev Word := BitVec 32

/-- A character or a byte (`CHAR_W` = 8, R7). -/
abbrev Byte := BitVec 8

/-- The operand of a DELAY event (`DUR_W` = 64, two's complement, R7). -/
abbrev Duration := BitVec 64

/-- `s32(v)`: the word as a two's-complement integer (R10). -/
def s32 (w : Word) : Int := w.toInt

/-- `u32(v)`: the word as an unsigned integer (R10). -/
def u32 (w : Word) : Nat := w.toNat

end Sys2Proof
end

