-- ==== Sys2Proof/Config.lean ====
section
/-! DEFINITION. The implementation parameters of 00_scope.md R7 and the values the spec leaves free. -/

namespace Sys2Proof

/-- The parameters a platform fixes (R7). State carries them, no step changes them, and so a claim about every state
speaks of every value of theirs (log 7). `N_INSTANCES` is the number of instances a state holds. -/
structure Params where
  /-- `DBUF_SIZE`: bytes in each instance's data buffer (R7). -/
  dbufSize : Nat
  /-- `FAMILY_TABLE`: the sixteen family patterns of variant C (R7, 40_codeword_encoder.md R203). -/
  familyTable : List (List Byte)
  /-- `TXINIT_GPIO`: whether TX_INIT issues the bring-up events of ENABLE_TRANSMIT (R7, 42_switch_handle.md R306). -/
  txInitGpio : Bool
deriving DecidableEq, Repr

/-- The default of `DBUF_SIZE` (R7). -/
def Config.dbufSize : Nat := 256

/-- The default of `N_INSTANCES` (R7). -/
def Config.nInstances : Nat := 1

/-- `TXINIT_GPIO` of the machine that State.reset describes: OPEN and without default in R7, so nothing is known of it
(log 5). -/
opaque Config.txInitGpio : Bool

/-- What the data buffer byte at `index` holds when nothing has written it since power-on (10_state.md R46, R49: unspecified;
93_implementation_defined.md S1: any value). `epoch` names the instance and the power-on. Nothing is known of it (log 3). -/
opaque Config.powerOnByte (epoch index : Nat) : Byte

end Sys2Proof
end

