-- ==== Sys2Proof/Syntax.lean ====
section
/-! DEFINITION. The sixteen commands of RCSW-CORE (30_encoding.md R124), the operand forms of R123, and the
assembler lines and source calls of R130 to R133, as plain data. -/

namespace Sys2Proof

/-- The commands of R124, one constructor per row of the opcode table. A command word holds no operand: R120, R122
read every operand from the argument registers and the data buffer when the command is accepted. -/
inductive Instr where
  | initA               -- INIT_A
  | initB               -- INIT_B
  | initC               -- INIT_C
  | initD               -- INIT_D
  | txInit              -- TX_INIT
  | enableTransmit      -- ENABLE_TRANSMIT
  | setPulseLength      -- SET_PULSE_LENGTH
  | setRepeatTransmit   -- SET_REPEAT_TRANSMIT
  | setProtocol         -- SET_PROTOCOL
  | switchOn            -- SWITCH_ON
  | switchOff           -- SWITCH_OFF
  | encodeOn            -- ENCODE_ON
  | encodeOff           -- ENCODE_OFF
  | sendTristate        -- SEND_TRISTATE
  | sendBinaryString    -- SEND_BINARY_STRING
  | sendBytes           -- SEND_BYTES
deriving DecidableEq, Repr

/-- The operand formats of R123, under their names there. -/
inductive Format where
  | n | i1 | i2 | ci2 | ci1 | p2 | s | pn
deriving DecidableEq, Repr

/-- The three ways an operand is read (R122). -/
inductive OperandKind where
  | int | char | ptr
deriving DecidableEq, Repr

/-- An operand as the assembler writes it (R130): an integer, `'c'`, or `@i`. -/
inductive Operand where
  | int (n : Int)
  | char (c : Byte)
  | ptr (i : Nat)
deriving DecidableEq, Repr

/-- One assembler line: a command with its operands (R130), or a directive that writes the data buffer (R132). -/
inductive AsmLine where
  | command (i : Instr) (ops : List Operand)
  | dbuf (i : Nat) (text : List Byte)
  | dbufb (i : Nat) (bytes : List Byte)
deriving DecidableEq, Repr

/-- A call of the source's API (R133), without its handle argument (R130). Where a call hands over a string or bytes, the host also
chooses the data buffer index it puts them at. -/
inductive SourceCall where
  | initVariantA (group device : List Byte) (groupAt deviceAt : Nat)
  | initVariantB (address channel : Int)
  | initVariantC (family : Byte) (group device : Int)
  | initVariantD (group : Byte) (device : Int)
  | enableTransmit (pin : Int)
  | switchOn
  | switchOff
  | setPulseLength (microseconds : Int)
  | setRepeatTransmit (count : Int)
  | setProtocol (protocol : Int)
  | transmitterInit (pin : Int)
  | transmitterSendBinaryString (bits : List Byte) (bitsAt : Nat)
  | transmitterSendBytes (data : List Byte) (n : Int) (dataAt : Nat)
  | destroy
  | transmitterDestroy
deriving DecidableEq, Repr

end Sys2Proof
end

