-- ==== Sys2Proof/Machine/Tables.lean ====
section
/-! DEFINITION. Character codes, the two codeword tables and the operand formats (30_encoding.md R123, R128; 40_codeword_encoder.md
R202, R203). -/

namespace Sys2Proof.Machine

/-- NUL, the string terminator (R128). -/
def chNul : Byte := 0x00

/-- `'0'` (R128). -/
def ch0 : Byte := 0x30

/-- `'1'` (R128). -/
def ch1 : Byte := 0x31

/-- `'F'`, the floating symbol (R128, R50). -/
def chF : Byte := 0x46

/-- The 8-bit codes of a text's characters (R11, R128). -/
def ascii (text : String) : List Byte := text.toList.map fun c => BitVec.ofNat 8 c.toNat

/-- The tri-state alphabet (30_encoding.md R127; 10_state.md R50). -/
def triAlphabet : List Byte := [ch0, ch1, chF]

/-- Variant B's code table (R202). Index 0 is never used, since the encoder rejects code 0. -/
def codeB : List (List Byte) :=
  [[chF, chF, chF, chF], [ch0, chF, chF, chF], [chF, ch0, chF, chF], [chF, chF, ch0, chF], [chF, chF, chF, ch0]]

/-- `FAMILY_TABLE_default[index]` (R203): bit k of the index gives symbol k, 1 as `'F'` and 0 as `'0'`. -/
def familyPattern (index : Nat) : List Byte :=
  (List.range 4).map fun k => if index.testBit k then chF else ch0

/-- The default of `FAMILY_TABLE` (R203): PRESUMED, the spec itself takes it from general knowledge (log 6). -/
def familyTableDefault : List (List Byte) := (List.range 16).map familyPattern

/-- The operand kinds of a format, in the order ARG0, ARG1, ARG2 (R123). -/
def kindsOf : Format → List OperandKind
  | .n => []
  | .i1 => [.int]
  | .i2 => [.int, .int]
  | .ci2 => [.char, .int, .int]
  | .ci1 => [.char, .int]
  | .p2 => [.ptr, .ptr]
  | .s => [.ptr]
  | .pn => [.ptr, .int]

/-- The formats by command (R123, R124). -/
def formatOf : Instr → Format
  | .initA => .p2
  | .initB => .i2
  | .initC => .ci2
  | .initD => .ci1
  | .txInit => .i1
  | .enableTransmit => .i1
  | .setPulseLength => .i1
  | .setRepeatTransmit => .i1
  | .setProtocol => .i1
  | .switchOn => .n
  | .switchOff => .n
  | .encodeOn => .n
  | .encodeOff => .n
  | .sendTristate => .s
  | .sendBinaryString => .s
  | .sendBytes => .pn

end Sys2Proof.Machine
end

