-- ==== Sys2Proof/WellFormed.lean ====
section
/-! DEFINITION. Well-formedness of commands, assembler lines and parameters (30_encoding.md R121, R123, R130; 00_scope.md R7). -/

namespace Sys2Proof

/-- Every command is well formed: its word holds no operand field that could be out of range (R120, R121). -/
def Instr.wf : Instr → Bool
  | .initA => true
  | .initB => true
  | .initC => true
  | .initD => true
  | .txInit => true
  | .enableTransmit => true
  | .setPulseLength => true
  | .setRepeatTransmit => true
  | .setProtocol => true
  | .switchOn => true
  | .switchOff => true
  | .encodeOn => true
  | .encodeOff => true
  | .sendTristate => true
  | .sendBinaryString => true
  | .sendBytes => true

/-- An operand has its kind and its range (R130): an integer fits in 32 bits, signed or unsigned (log 15), and a pointer is a data
buffer index. -/
def Operand.wf (size : Nat) : OperandKind → Operand → Bool
  | .int, .int n => decide (-2 ^ 31 ≤ n ∧ n < 2 ^ 32)
  | .char, .char _ => true
  | .ptr, .ptr i => decide (i < size)
  | _, _ => false

/-- An assembler line is well formed (R130, R132): as many operands as its format has, each of its kind, and a
directive's bytes, its NUL included, lie in the data buffer. -/
def AsmLine.wf (size : Nat) : AsmLine → Bool
  | .command i ops =>
    decide (ops.length = (Machine.kindsOf (Machine.formatOf i)).length) && (List.zipWith (Operand.wf size) (Machine.kindsOf (Machine.formatOf i)) ops).all id
  | .dbuf i text => decide (i + text.length + 1 ≤ size)
  | .dbufb i bytes => decide (i + bytes.length ≤ size)

/-- A source call is well formed: `transmitter_send_bytes` hands over at least the n bytes it asks for, so that data[0] to data[n-1] of R133
exist; a negative n asks for none (log 22). -/
def SourceCall.wf : SourceCall → Bool
  | .initVariantA _ _ _ _ => true
  | .initVariantB _ _ => true
  | .initVariantC _ _ _ => true
  | .initVariantD _ _ => true
  | .enableTransmit _ => true
  | .switchOn => true
  | .switchOff => true
  | .setPulseLength _ => true
  | .setRepeatTransmit _ => true
  | .setProtocol _ => true
  | .transmitterInit _ => true
  | .transmitterSendBinaryString _ _ => true
  | .transmitterSendBytes data n _ => decide (n ≤ data.length)
  | .destroy => true
  | .transmitterDestroy => true

/-- `DBUF_SIZE` is a multiple of 4 with 16 ≤ DBUF_SIZE ≤ 3840 (R7). -/
def Params.dbufSizeWf (p : Params) : Bool := decide (p.dbufSize % 4 = 0 ∧ 16 ≤ p.dbufSize ∧ p.dbufSize ≤ 3840)

/-- `FAMILY_TABLE` is sixteen four-symbol strings over '0' and 'F', with entry 0 equal to "0000" (40_codeword_encoder.md R203). -/
def Params.familyTableWf (p : Params) : Bool :=
  decide (p.familyTable.length = 16)
    && p.familyTable.all (fun t => decide (t.length = 4) && t.all fun c => c == Machine.ch0 || c == Machine.chF)
    && decide (p.familyTable.head? = some [Machine.ch0, Machine.ch0, Machine.ch0, Machine.ch0])

/-- The parameters lie in the ranges of R7 and R203. -/
def Params.wf (p : Params) : Bool := p.dbufSizeWf && p.familyTableWf

end Sys2Proof
end

