-- ==== Sys2Proof/Decode.lean ====
section
/-! DEFINITION. Decoding and encoding of command words (30_encoding.md R120, R121, R124, R125). -/

namespace Sys2Proof

/-- Why a word is no command (R121): both give Err(ILLEGAL_CMD). -/
inductive Reject where
  /-- A bit of RSV, CMD[31:8], is 1. -/
  | reservedBits
  /-- OP, CMD[7:0], is none of the opcodes of R124. -/
  | reservedOpcode
deriving DecidableEq, Repr

/-- The command an opcode names (R124). -/
def decodeOp (op : Byte) : Option Instr :=
  match op with
  | 0x01 => some .initA
  | 0x02 => some .initB
  | 0x03 => some .initC
  | 0x04 => some .initD
  | 0x05 => some .txInit
  | 0x08 => some .enableTransmit
  | 0x09 => some .setPulseLength
  | 0x0A => some .setRepeatTransmit
  | 0x0B => some .setProtocol
  | 0x10 => some .switchOn
  | 0x11 => some .switchOff
  | 0x12 => some .encodeOn
  | 0x13 => some .encodeOff
  | 0x20 => some .sendTristate
  | 0x21 => some .sendBinaryString
  | 0x22 => some .sendBytes
  | _ => none

/-- Decode a word written to CMD (R121): RSV must be 0 and OP an opcode of R124; every other word is rejected by
name (R125). -/
def decode (w : Word) : Except Reject Instr :=
  if w.extractLsb' 8 24 ≠ 0 then .error .reservedBits
  else
    match decodeOp (w.extractLsb' 0 8) with
    | some i => .ok i
    | none => .error .reservedOpcode

/-- The opcode of a command (R124). -/
def opcode : Instr → Byte
  | .initA => 0x01
  | .initB => 0x02
  | .initC => 0x03
  | .initD => 0x04
  | .txInit => 0x05
  | .enableTransmit => 0x08
  | .setPulseLength => 0x09
  | .setRepeatTransmit => 0x0A
  | .setProtocol => 0x0B
  | .switchOn => 0x10
  | .switchOff => 0x11
  | .encodeOn => 0x12
  | .encodeOff => 0x13
  | .sendTristate => 0x20
  | .sendBinaryString => 0x21
  | .sendBytes => 0x22

/-- The command word: `zext_32(OP)` (R124). -/
def encode (i : Instr) : Word := (opcode i).zeroExtend 32

/-- What the decoder reads from an instruction of `nbits` bits `w`, every bit above them 0. A command is one 32-bit
word (R120), so a value with a bit above bit 31 is no command. -/
def decodeTableWord (nbits w : Nat) : Option Instr :=
  if w % 2 ^ nbits < 2 ^ 32 then (decode (BitVec.ofNat 32 (w % 2 ^ nbits))).toOption else none

end Sys2Proof
end

