-- ==== Sys2Proof/Machine/State.lean ====
section
/-! DEFINITION. The state of a platform of RCSW-CORE instances and its values after power-on reset (10_state.md R30 to R49;
60_exceptions.md R416). -/

namespace Sys2Proof.Machine

/-- A GPIO event (00_scope.md R14, 20_memory.md R100). -/
inductive Event where
  /-- `INIT`: `platform_gpio_init()`. -/
  | init
  /-- `CFGOUT(p)`: `configure_pin_output(p)`. -/
  | cfgOut (pin : Word)
  /-- `WRITE(p, b)`: `write_pin(p, b)`, true is high. -/
  | write (pin : Word) (level : Bool)
  /-- `DELAY(d)`: `delay_microseconds(d)`, d a 64-bit signed number of microseconds. -/
  | delay (microseconds : Duration)
deriving DecidableEq, Repr

/-- The interface error codes (60_exceptions.md R405); codes 5 to 15 are never produced, so they have no constructor. -/
inductive ErrCode where
  /-- Code 0: no error recorded. -/
  | noError
  /-- Code 1: a CMD write that is no command. -/
  | illegalCmd
  /-- Code 2: a misaligned access, or a write to a read-only or reserved offset. -/
  | badAccess
  /-- Code 3: a data buffer operand passes the end of the buffer, or has no NUL inside it. -/
  | dbufRange
  /-- Code 4: an encoder command with VARIANT = NONE. -/
  | noVariant
deriving DecidableEq, Repr

/-- The encoder an instance is bound to (10_state.md R38); codes 5 to 7 never occur. -/
inductive Variant where
  | none | a | b | c | d
deriving DecidableEq, Repr

/-- The bytes of a data buffer that the host has written since power-on, by index, indices strictly rising. A byte that
is not listed holds a free value (log 3), which no listed byte can be compared with. -/
abbrev Memory := List Host.Cell

/-- One MMIO access of a host (20_memory.md R81): a 32-bit word at a byte offset of its instance's window. -/
inductive Access where
  | read (offset : Nat)
  | write (offset : Nat) (value : Word)
deriving DecidableEq, Repr

/-- Who moves next (log 2): the spec orders the agents of R8 only as far as 20_memory.md R93 and R94 say. -/
inductive Turn where
  /-- The host of the selected instance makes its next access, or goes on waiting if it is held (R90). -/
  | host
  /-- The sequencer of the selected instance presents its next event, if it may (10_state.md R48 (a)). -/
  | sequencer
  /-- The GPIO capability acknowledges the presented event, if there is one (10_state.md R48 (b)). -/
  | gpio
  /-- The GPIO capability stops acknowledging this instance for good (93_implementation_defined.md S8). -/
  | hang
  /-- Instance number `k` of the platform is the one that moves from now on (20_memory.md R94). -/
  | select (k : Nat)
  /-- Power-on reset of the platform (70_reset_and_hazards.md R500). -/
  | powerOn
deriving DecidableEq, Repr

/-- What surrounds one instance: its host, the capability's will to answer it, and what has been observed of it. None of
it is state of the block (10_state.md R51). -/
structure Outside where
  /-- The accesses the host has yet to make, in its order (log 1); a held write stays at the head (log 13). -/
  host : List Access
  /-- The capability will acknowledge no event of this instance (93 S8, log 2). -/
  hung : Bool
  /-- The events presented on the GPIO event port since power-on, the oldest first (00_scope.md R9 (a), log 10). -/
  events : List Event
  /-- The reads answered since power-on, each with its offset, the oldest first (00_scope.md R9 (b), log 10). -/
  reads : List (Nat × Word)
deriving DecidableEq, Repr

/-- The architectural state of one instance (10_state.md R30), and what surrounds it. STATUS.BUSY and STATUS.GPIO_INIT are
computed from `queue`, `await` and the platform's LATCH (R34, R36, log 9). -/
structure Instance where
  /-- ARG0 (R31). -/
  arg0 : Word
  /-- ARG1 (R31). -/
  arg1 : Word
  /-- ARG2 (R31). -/
  arg2 : Word
  /-- STATUS.CW_VALID (R35). -/
  cwValid : Bool
  /-- STATUS.ERR (R37). -/
  err : Bool
  /-- STATUS.ERRCODE (R37). -/
  errCode : ErrCode
  /-- STATUS.VARIANT (R38). -/
  variant : Variant
  /-- PIN (R39). -/
  pin : Word
  /-- PULSE (R40). -/
  pulse : Word
  /-- REPEAT (R41). -/
  repeatCount : Word
  /-- PROTOCOL (R42). -/
  protocol : Word
  /-- PARAM_CH (R43). -/
  paramCh : Byte
  /-- PARAM_N0 (R43). -/
  paramN0 : Word
  /-- PARAM_N1 (R43). -/
  paramN1 : Word
  /-- PARAM_A[0..9] (R43). -/
  paramA : List Byte
  /-- CW[0..11] (R45). -/
  cw : List Byte
  /-- DBUF (R46): the bytes the host has written. -/
  dbuf : Memory
  /-- Q, the sequencer's pending events, the next one first (R48). -/
  queue : List Event
  /-- AWAIT: the presented event is not yet acknowledged (R48). -/
  await : Bool
  /-- The MODEL's own: which draw of unspecified contents the unwritten bytes of DBUF hold (log 4). -/
  epoch : Nat
  /-- What surrounds the instance. -/
  out : Outside
deriving DecidableEq, Repr

/-- A platform (60_exceptions.md R416): its instances in a row, `inst` the one that moves now, and the one bit they share. -/
structure State where
  /-- The parameters of R7, which no step changes. -/
  params : Params
  /-- The instances before the selected one. -/
  before : List Instance
  /-- The selected instance: a host access, a command or an event of this step is its (log 8). -/
  inst : Instance
  /-- The instances after the selected one. -/
  after : List Instance
  /-- LATCH, the platform-wide bring-up latch (10_state.md R47). -/
  latch : Bool
  /-- Who moves next, the first turn first; when it is empty the order of log 2 applies. -/
  turns : List Turn
deriving DecidableEq, Repr

/-- Why a step stops. The block itself never stops: its errors are recorded in STATUS (60_exceptions.md R410, R421). -/
inductive Fault where
  /-- Raised by the host's turn when the host's next access is at an offset of 0x1000 or more, which the MMIO space of an
  instance does not have (20_memory.md R80). Safe: the access reaches no instance (log 12). -/
  | outsideWindow
deriving DecidableEq, Repr

/-- Why an instruction has no meaning. -/
inductive Refusal where
  /-- Raised by an arm of exec whose instruction has no meaning yet; no arm of this model raises it. Safe. -/
  | notModelled (mnemonic : String)
deriving DecidableEq, Repr

/-- An outcome of this machine. -/
abbrev Result := Host.Outcome State Fault Refusal

/-- The surroundings at power-on: a host with nothing to do, a capability that answers, nothing observed. -/
def Outside.reset : Outside := { host := [], hung := false, events := [], reads := [] }

/-- One instance after power-on reset (10_state.md R49). -/
def Instance.reset (epoch : Nat) : Instance where
  arg0 := 0
  arg1 := 0
  arg2 := 0
  cwValid := false
  err := false
  errCode := .noError
  variant := .none
  pin := -1
  pulse := 350
  repeatCount := 10
  protocol := 1
  paramCh := 0
  paramN0 := 0
  paramN1 := 0
  paramA := List.replicate 10 0
  cw := List.replicate 12 0
  dbuf := []
  queue := []
  await := false
  epoch := epoch
  out := Outside.reset

/-- The parameters at their defaults (R7); `TXINIT_GPIO` has none and stays unknown (log 5). -/
def defaultParams : Params where
  dbufSize := Config.dbufSize
  familyTable := familyTableDefault
  txInitGpio := Config.txInitGpio

/-- The machine right after power-on reset (10_state.md R49; 70_reset_and_hazards.md R500): `N_INSTANCES` instances, the first selected,
LATCH = 0, no access and no turn placed. -/
def State.reset : State where
  params := defaultParams
  before := []
  inst := Instance.reset 0
  after := (List.range' 1 (Config.nInstances - 1)).map Instance.reset
  latch := false
  turns := []

end Sys2Proof.Machine
end

