-- ==== Sys2Proof/Machine/Flags.lean ====
section
/-! DEFINITION. The STATUS register: its fields as bits, and the word a read returns (10_state.md R33 to R38). -/

namespace Sys2Proof.Machine

/-- STATUS.BUSY (R34): the queue holds an event or the presented event is not acknowledged. -/
def Instance.busy (i : Instance) : Bool := !i.queue.isEmpty || i.await

/-- The sequencer is idle (R48). -/
def Instance.idle (i : Instance) : Bool := !i.busy

/-- The code of an error (60_exceptions.md R405). -/
def errCodeBits : ErrCode → BitVec 4
  | .noError => 0
  | .illegalCmd => 1
  | .badAccess => 2
  | .dbufRange => 3
  | .noVariant => 4

/-- The code of a variant (R38). -/
def variantBits : Variant → BitVec 3
  | .none => 0
  | .a => 1
  | .b => 2
  | .c => 3
  | .d => 4

/-- STATUS as a word (R33): from bit 31 down, 21 zeros, VARIANT, ERRCODE, ERR, GPIO_INIT, CW_VALID, BUSY. GPIO_INIT is
the platform's LATCH (R36). -/
def statusWord (latch : Bool) (i : Instance) : Word :=
  0#21 ++ variantBits i.variant ++ errCodeBits i.errCode ++ BitVec.ofBool i.err ++ BitVec.ofBool latch
    ++ BitVec.ofBool i.cwValid ++ BitVec.ofBool i.busy

end Sys2Proof.Machine
end

