-- ==== Sys2Proof/Machine/Ops.lean ====
section
/-! DEFINITION. The named operations over an instance's registers, its data buffer, its sequencer and its errors, and over
the platform. -/

namespace Sys2Proof.Machine

/-! ### Words and bytes -/

/-- A 32-bit word of four bytes, the one of lowest index in bits 7:0 (20_memory.md R85). -/
def packWord (b0 b1 b2 b3 : Byte) : Word := b3 ++ b2 ++ b1 ++ b0

/-- The byte of a word in lane k, bits 8k+7:8k (R85). -/
def laneOf (w : Word) (k : Nat) : Byte := w.extractLsb' (8 * k) 8

/-- Element k of a register array; a legal array has it (Safety.lean). -/
def byteAt (l : List Byte) (k : Nat) : Byte := l.getD k 0

/-- The word that packs elements k to k+3 of a register array (R85). -/
def wordAt (l : List Byte) (k : Nat) : Word := packWord (byteAt l k) (byteAt l (k + 1)) (byteAt l (k + 2)) (byteAt l (k + 3))

/-! ### The data buffer -/

/-- The byte written at an index, if one was written since power-on. -/
def readCell : Memory → Nat → Option Byte
  | [], _ => none
  | (a, b) :: m, k => if a = k then some b else readCell m k

/-- Write a byte at an index, keeping the indices strictly rising. -/
def writeCell : Memory → Nat → Byte → Memory
  | [], k, b => [(k, b)]
  | (a, c) :: m, k, b =>
    if k < a then (k, b) :: (a, c) :: m
    else if k = a then (k, b) :: m
    else (a, c) :: writeCell m k b

/-- The canonical form of a data buffer of `size` bytes: indices strictly rising, and each one of the buffer's. A byte that
is not listed has no value of its own, so no entry can equal it (log 3). -/
abbrev Memory.wf (size : Nat) (m : Memory) : Prop := m.Pairwise (fun x y => x.1 < y.1) ∧ ∀ x ∈ m, x.1 < size

/-- DBUF[k] (10_state.md R46): the byte the host last wrote there, or the unspecified byte it held at power-on (log 3). -/
def Instance.dbufByte (i : Instance) (k : Nat) : Byte := (readCell i.dbuf k).getD (Config.powerOnByte i.epoch k)

/-- Write the four bytes of a word at indices k to k+3 (20_memory.md R85, R87). -/
def writeDbufWord (m : Memory) (k : Nat) (w : Word) : Memory :=
  writeCell (writeCell (writeCell (writeCell m k (laneOf w 0)) (k + 1) (laneOf w 1)) (k + 2) (laneOf w 2)) (k + 3) (laneOf w 3)

/-! ### Errors: what the block does instead of an exception (60_exceptions.md R406, R410) -/

/-- `raise Err(c)` (R406): ERR becomes 1, and ERRCODE keeps the first error's code. The command or access that raises it does
nothing else (R407). -/
def raiseErr (c : ErrCode) (i : Instance) : Instance :=
  { i with err := true, errCode := if i.err then i.errCode else c }

/-! ### Registers -/

/-- `construct(v)` (42_switch_handle.md R300): bind the variant, load the transmitter defaults, clear the parameters and CW_VALID. -/
def construct (v : Variant) (i : Instance) : Instance :=
  { i with
    variant := v, pin := -1, pulse := 350, repeatCount := 10, protocol := 1
    paramCh := 0, paramN0 := 0, paramN1 := 0, paramA := List.replicate 10 0, cwValid := false }

/-- `latch_cw(r)` (40_codeword_encoder.md R209): a codeword is stored whole and valid; NONE leaves CW and clears CW_VALID. -/
def latchCw (r : Option (List Byte)) (i : Instance) : Instance :=
  match r with
  | none => { i with cwValid := false }
  | some w => { i with cw := w, cwValid := true }

/-! ### The sequencer -/

/-- `emit(L)` (00_scope.md R14): append events to the instance's queue. -/
def emit (l : List Event) (i : Instance) : Instance := { i with queue := i.queue ++ l }

/-- The events of `gpio_bind(q)` (42_switch_handle.md R307), LATCH read when the command is accepted (60_exceptions.md R417). -/
def gpioBind (latch : Bool) (q : Word) : List Event :=
  (if latch then [] else [.init]) ++ (if s32 q = -1 then [] else [.cfgOut q])

/-- Replace the selected instance. -/
def State.withInst (s : State) (i : Instance) : State := { s with inst := i }

/-- The sequencer's step (a) (10_state.md R48): with AWAIT = 0, the head of Q is presented and AWAIT becomes 1. Presenting INIT
sets LATCH (R47). -/
def present (s : State) : State :=
  match s.inst.await, s.inst.queue with
  | false, e :: rest =>
    { s with
      inst := { s.inst with
        queue := rest, await := true, out := { s.inst.out with events := s.inst.out.events ++ [e] } }
      latch := s.latch || decide (e = .init) }
  | _, _ => s

/-- The sequencer's step (b) (R48): the capability acknowledges the presented event, unless it never will (93 S8). -/
def acknowledge (s : State) : State :=
  if s.inst.out.hung then s else s.withInst { s.inst with await := false }

/-- The capability stops answering: the presented event stays unacknowledged for ever (20_memory.md R101; 93 S8). -/
def hangGpio (s : State) : State :=
  if s.inst.await then s.withInst { s.inst with out := { s.inst.out with hung := true } } else s

/-! ### The platform -/

/-- The instances of a platform in order (60_exceptions.md R416). -/
def State.instances (s : State) : List Instance := s.before ++ s.inst :: s.after

/-- Instance number k becomes the one that moves; a platform without it stays as it is. -/
def selectInstance (k : Nat) (s : State) : State :=
  match s.instances[k]? with
  | some i => { s with before := s.instances.take k, inst := i, after := s.instances.drop (k + 1) }
  | none => s

/-- Power-on reset of one instance among `n` (70_reset_and_hazards.md R500): its state takes the values of 10_state.md R49, its data buffer
a new draw of unspecified contents (log 4), and the records of what was observed start again (log 10). The accesses its host
has yet to make are the host's own and stay (log 11). -/
def powerOnInstance (n : Nat) (i : Instance) : Instance :=
  { Instance.reset (i.epoch + n) with out := { Outside.reset with host := i.out.host } }

/-- Power-on reset of the platform (R500): every instance, and LATCH becomes 0 (10_state.md R47). -/
def powerOnReset (s : State) : State :=
  { s with
    before := s.before.map (powerOnInstance s.instances.length)
    inst := powerOnInstance s.instances.length s.inst
    after := s.after.map (powerOnInstance s.instances.length)
    latch := false }

end Sys2Proof.Machine
end

