-- ==== Sys2Proof/Machine/Operands.lean ====
section
/-! DEFINITION. How a command reads its operands: the three operand forms of 30_encoding.md R122, and `MemRead` and `StrAt` over the data
buffer (20_memory.md R91, R92). -/

namespace Sys2Proof.Machine

/-- The argument registers a command reads (R122). -/
inductive ArgReg where
  | arg0 | arg1 | arg2
deriving DecidableEq, Repr

/-- The word of an argument register (10_state.md R31). -/
def argWord (i : Instance) : ArgReg → Word
  | .arg0 => i.arg0
  | .arg1 => i.arg1
  | .arg2 => i.arg2

/-- An int operand: `s32(ARGk)` (R122). -/
def argInt (i : Instance) (k : ArgReg) : Int := s32 (argWord i k)

/-- A char operand: `ARGk[7:0]`, bits 31:8 ignored (R122). -/
def argChar (i : Instance) (k : ArgReg) : Byte := (argWord i k).extractLsb' 0 8

/-- A ptr operand: `u32(ARGk)`, a data buffer index (R122). -/
def argPtr (i : Instance) (k : ArgReg) : Nat := u32 (argWord i k)

/-- `MemRead(start, n)` (R91): the n bytes from an index on, or nothing where they pass the end of the data buffer. -/
def memRead (size : Nat) (i : Instance) (start n : Nat) : Option (List Byte) :=
  if start + n ≤ size then some ((List.range n).map fun k => i.dbufByte (start + k)) else none

/-- The bytes from an index up to the first NUL among the next `fuel` bytes, or nothing where none of them is NUL. -/
def scanToNul (i : Instance) (start : Nat) : Nat → Option (List Byte)
  | 0 => none
  | fuel + 1 =>
    if i.dbufByte start = chNul then some []
    else (scanToNul i (start + 1) fuel).map (i.dbufByte start :: ·)

/-- `StrAt(start)` (R92): the NUL-terminated string at an index, without its NUL; nothing where the index lies outside the
data buffer or no NUL follows inside it. -/
def strAt (size : Nat) (i : Instance) (start : Nat) : Option (List Byte) := scanToNul i start (size - start)

end Sys2Proof.Machine
end

