-- ==== Sys2Proof/Machine/Configure.lean ====
section
/-! DEFINITION. Pin binding and the three setters (42_switch_handle.md R307 to R310); every VARIANT accepts them (R314). -/

namespace Sys2Proof.Machine

/-- ENABLE_TRANSMIT (R307): bind the pin and emit the bring-up events. LATCH becomes 1 only when INIT is presented
(60_exceptions.md R417). -/
def execEnableTransmit (s : State) : Result :=
  .next (s.withInst
    (emit (gpioBind s.latch (argWord s.inst .arg0)) { s.inst with pin := argWord s.inst .arg0 }))

/-- SET_PULSE_LENGTH (R308), without validation. -/
def execSetPulseLength (s : State) : Result := .next (s.withInst { s.inst with pulse := argWord s.inst .arg0 })

/-- SET_REPEAT_TRANSMIT (R309), without validation. -/
def execSetRepeatTransmit (s : State) : Result := .next (s.withInst { s.inst with repeatCount := argWord s.inst .arg0 })

/-- SET_PROTOCOL (R310), without validation. -/
def execSetProtocol (s : State) : Result := .next (s.withInst { s.inst with protocol := argWord s.inst .arg0 })

end Sys2Proof.Machine
end

