-- ==== Sys2Proof/Machine/Construct.lean ====
section
/-! DEFINITION. The construction commands (42_switch_handle.md R300 to R306). -/

namespace Sys2Proof.Machine

/-- INIT_A (R301): ten data buffer bytes become the parameters, after both range checks; Err(DBUF_RANGE) otherwise. -/
def execInitA (s : State) : Result :=
  .next (s.withInst
    (match memRead s.params.dbufSize s.inst (argPtr s.inst .arg0) 5, memRead s.params.dbufSize s.inst (argPtr s.inst .arg1) 5 with
    | some g, some d => { construct .a s.inst with paramA := g ++ d }
    | _, _ => raiseErr .dbufRange s.inst))

/-- INIT_B (R302): address and channel are stored unchecked (R305). -/
def execInitB (s : State) : Result :=
  .next (s.withInst
    { construct .b s.inst with paramN0 := argWord s.inst .arg0, paramN1 := argWord s.inst .arg1 })

/-- INIT_C (R303): family, group and device are stored unchecked (R305). -/
def execInitC (s : State) : Result :=
  .next (s.withInst
    { construct .c s.inst with
      paramCh := argChar s.inst .arg0, paramN0 := argWord s.inst .arg1, paramN1 := argWord s.inst .arg2 })

/-- INIT_D (R304): group and device are stored unchecked (R305). -/
def execInitD (s : State) : Result :=
  .next (s.withInst
    { construct .d s.inst with paramCh := argChar s.inst .arg0, paramN0 := argWord s.inst .arg1 })

/-- TX_INIT (R306): a standalone transmitter on a pin; the bring-up events of R307 only where `TXINIT_GPIO` holds. -/
def execTxInit (s : State) : Result :=
  .next (s.withInst
    (emit (if s.params.txInitGpio then gpioBind s.latch (argWord s.inst .arg0) else [])
      { construct .none s.inst with pin := argWord s.inst .arg0 }))

end Sys2Proof.Machine
end

