-- ==== Sys2Proof/Machine/Transmitter.lean ====
section
/-! DEFINITION. The pulse transmitter: from the configuration and a symbol list to the list of GPIO events
(41_pulse_transmitter.md R250 to R260, R264). -/

namespace Sys2Proof.Machine

/-- The configuration a transmitting command reads once, when it is accepted (R250). -/
structure Snapshot where
  /-- PIN. -/
  pin : Word
  /-- The pulse unit u, PULSE as an integer. -/
  unit : Int
  /-- The protocol p. -/
  protocol : Int
  /-- The repeat count N. -/
  count : Int
deriving DecidableEq, Repr

/-- The snapshot of an instance (R250). -/
def snapshot (i : Instance) : Snapshot :=
  { pin := i.pin, unit := s32 i.pulse, protocol := s32 i.protocol, count := s32 i.repeatCount }

/-- The DELAY of m pulse units (R264): the exact product, as a 64-bit operand. -/
def delayUnits (c : Snapshot) (m : Nat) : Event := .delay (BitVec.ofInt 64 (c.unit * m))

/-- `pair(hi, lo)` (R251): a disabled pin, -1, omits the two WRITE events and keeps the two DELAYs (R252). -/
def pulsePair (c : Snapshot) (hi lo : Nat) : List Event :=
  if s32 c.pin ≠ -1 then [.write c.pin true, delayUnits c hi, .write c.pin false, delayUnits c lo]
  else [delayUnits c hi, delayUnits c lo]

/-- The (hi, lo) multipliers of one protocol (R253). -/
structure Multipliers where
  bit0 : Nat × Nat
  bit1 : Nat × Nat
  sync : Nat × Nat
deriving DecidableEq, Repr

/-- PROTO (R253): the table of the three supported protocols; any other number has no row. -/
def protocolRow (p : Int) : Option Multipliers :=
  if p = 1 then some { bit0 := (1, 3), bit1 := (3, 1), sync := (1, 31) }
  else if p = 2 then some { bit0 := (1, 2), bit1 := (2, 1), sync := (1, 10) }
  else if p = 3 then some { bit0 := (4, 11), bit1 := (9, 6), sync := (1, 71) }
  else none

/-- `bit0()` (R254): silent for an unsupported protocol. -/
def bit0Pulses (c : Snapshot) : List Event :=
  match protocolRow c.protocol with
  | some m => pulsePair c m.bit0.1 m.bit0.2
  | none => []

/-- `bit1()` (R254). -/
def bit1Pulses (c : Snapshot) : List Event :=
  match protocolRow c.protocol with
  | some m => pulsePair c m.bit1.1 m.bit1.2
  | none => []

/-- `sync()` (R254). -/
def syncPulses (c : Snapshot) : List Event :=
  match protocolRow c.protocol with
  | some m => pulsePair c m.sync.1 m.sync.2
  | none => []

/-- `tri(c)` (R255): two pulse pairs per symbol, whatever the protocol; any other byte is skipped. -/
def triPulses (c : Snapshot) (symbol : Byte) : List Event :=
  if symbol = ch0 then pulsePair c 1 3 ++ pulsePair c 1 3
  else if symbol = ch1 then pulsePair c 3 1 ++ pulsePair c 3 1
  else if symbol = chF then pulsePair c 1 3 ++ pulsePair c 3 1
  else []

/-- `bin(c)` (R256): one pulse pair per symbol; any other byte is skipped. -/
def binPulses (c : Snapshot) (symbol : Byte) : List Event :=
  if symbol = ch0 then bit0Pulses c
  else if symbol = ch1 then bit1Pulses c
  else []

/-- `repeat(body)` (R257): max(0, N) frames, each the body and a sync. -/
def repeatFrame (c : Snapshot) (body : List Event) : List Event :=
  (List.replicate c.count.toNat (body ++ syncPulses c)).flatten

/-- `send_tri(s)` (R258); the empty string still gives N syncs. -/
def sendTri (c : Snapshot) (s : List Byte) : List Event := repeatFrame c (s.map (triPulses c)).flatten

/-- `send_bin(s)` (R259); the empty string gives nothing. -/
def sendBin (c : Snapshot) (s : List Byte) : List Event :=
  if s = [] then [] else repeatFrame c (s.map (binPulses c)).flatten

/-- The symbols of one byte, bit 7 first (30_encoding.md R129; R260). -/
def byteBits (b : Byte) : List Byte := (List.range 8).map fun j => if b.getLsbD (7 - j) then ch1 else ch0

/-- `bytes_to_bits(b)` (R260). -/
def bytesToBits (bytes : List Byte) : List Byte := (bytes.map byteBits).flatten

end Sys2Proof.Machine
end

