-- ==== Sys2Proof/Machine/Send.lean ====
section
/-! DEFINITION. The send commands (41_pulse_transmitter.md R261 to R263); every VARIANT accepts them (42_switch_handle.md R314). -/

namespace Sys2Proof.Machine

/-- SEND_TRISTATE (R261): Err(DBUF_RANGE) where the string has no NUL inside the data buffer. -/
def execSendTristate (s : State) : Result :=
  .next (s.withInst
    (match strAt s.params.dbufSize s.inst (argPtr s.inst .arg0) with
    | some text => emit (sendTri (snapshot s.inst) text) s.inst
    | none => raiseErr .dbufRange s.inst))

/-- SEND_BINARY_STRING (R262): Err(DBUF_RANGE) where the string has no NUL inside the data buffer. -/
def execSendBinaryString (s : State) : Result :=
  .next (s.withInst
    (match strAt s.params.dbufSize s.inst (argPtr s.inst .arg0) with
    | some text => emit (sendBin (snapshot s.inst) text) s.inst
    | none => raiseErr .dbufRange s.inst))

/-- SEND_BYTES (R263): n ≤ 0 does nothing and checks nothing; Err(DBUF_RANGE) where the bytes pass the end of the data buffer. -/
def execSendBytes (s : State) : Result :=
  .next (s.withInst
    (if argInt s.inst .arg1 ≤ 0 then s.inst
    else
      match memRead s.params.dbufSize s.inst (argPtr s.inst .arg0) (argInt s.inst .arg1).toNat with
      | some bytes => emit (repeatFrame (snapshot s.inst) ((bytesToBits bytes).map (binPulses (snapshot s.inst))).flatten) s.inst
      | none => raiseErr .dbufRange s.inst))

end Sys2Proof.Machine
end

