-- ==== Sys2Proof/Machine/Encoder.lean ====
section
/-! DEFINITION. The codeword encoder: the shared helper, the four variants and the dispatch on VARIANT (40_codeword_encoder.md
R200 to R208). `none` is the sentinel NONE (R200). -/

namespace Sys2Proof.Machine

/-- `dec2bin(dec, n, fill)` (R201): the bits of a number, the most significant first, 1 as `'1'` and 0 as the fill character.
Its argument is an n-bit number, so the inputs R201 leaves open are none of its (log 14). -/
def dec2bin {n : Nat} (dec : BitVec n) (fill : Byte) : List Byte :=
  (List.range n).map fun j => if dec.getLsbD (n - 1 - j) then ch1 else fill

/-- `encode_A(g, d, on)` (R204): every character of group and device inverted, `'0'` to `'F'` and any other to `'0'`, then two
status symbols. It never gives NONE. -/
def encodeA (g d : List Byte) (on : Bool) : Option (List Byte) :=
  let inv := fun c : Byte => if c = ch0 then chF else ch0
  some (g.map inv ++ d.map inv ++ (if on then [ch0, chF] else [chF, ch0]))

/-- `encode_B(a, c, on)` (R205). -/
def encodeB (a c : Int) (on : Bool) : Option (List Byte) :=
  if a < 1 ∨ a > 4 ∨ c < 1 ∨ c > 4 then none
  else some (codeB.getD a.toNat [] ++ codeB.getD c.toNat [] ++ [chF, chF, chF] ++ [if on then chF else ch0])

/-- The device/group pattern of variant C (R206): bit i of the index gives symbol i, read in reverse from the most
significant first string. -/
def deviceGroupPattern (dgi : BitVec 4) : List Byte :=
  (dec2bin dgi ch0).reverse.map fun c => if c = ch1 then chF else ch0

/-- `encode_C(f, g, d, on)` (R206) over the platform's `FAMILY_TABLE` (R203). -/
def encodeC (familyTable : List (List Byte)) (f : Byte) (g d : Int) (on : Bool) : Option (List Byte) :=
  if f < 0x61 ∨ f > 0x70 ∨ g < 1 ∨ g > 4 ∨ d < 1 ∨ d > 4 then none
  else
    let dgi : BitVec 4 := BitVec.ofInt 4 ((d - 1) + (g - 1) * 4)
    some (familyTable.getD (f.toNat - 0x61) [] ++ deviceGroupPattern dgi ++ [ch0, chF, chF] ++ [if on then chF else ch0])

/-- The group value of variant D (R207): A, B, C, D in either case are 8, 4, 2, 1. -/
def groupValueD (gc : Byte) : Option (BitVec 4) :=
  if gc = 0x41 ∨ gc = 0x61 then some 8
  else if gc = 0x42 ∨ gc = 0x62 then some 4
  else if gc = 0x43 ∨ gc = 0x63 then some 2
  else if gc = 0x44 ∨ gc = 0x64 then some 1
  else none

/-- The device value of variant D (R207): 1, 2, 3 are 4, 2, 1. -/
def deviceValueD (dv : Int) : Option (BitVec 3) :=
  if dv = 1 then some 4 else if dv = 2 then some 2 else if dv = 3 then some 1 else none

/-- `encode_D(gc, dv, on)` (R207): position 10 becomes `'1'` for on, position 11 for off. -/
def encodeD (gc : Byte) (dv : Int) (on : Bool) : Option (List Byte) :=
  match groupValueD gc, deviceValueD dv with
  | some gv, some dn =>
    let w := dec2bin gv chF ++ dec2bin dn chF ++ [ch0, ch0, ch0, ch0, ch0]
    some (if on then w.set 10 ch1 else w.set 11 ch1)
  | _, _ => none

/-- `encode(on)` of an instance that is bound to a variant (R208), from its stored parameters alone (R200). A caller checks
for VARIANT = NONE first, where R208 raises NO_VARIANT instead. -/
def encodeCodeword (familyTable : List (List Byte)) (i : Instance) (on : Bool) : Option (List Byte) :=
  match i.variant with
  | .a => encodeA (i.paramA.take 5) (i.paramA.drop 5) on
  | .b => encodeB (s32 i.paramN0) (s32 i.paramN1) on
  | .c => encodeC familyTable i.paramCh (s32 i.paramN0) (s32 i.paramN1) on
  | .d => encodeD i.paramCh (s32 i.paramN0) on
  | .none => none

end Sys2Proof.Machine
end

