-- ==== Sys2Proof/Machine/Switch.lean ====
section
/-! DEFINITION. The encoder commands and the switch commands (40_codeword_encoder.md R208 to R211; 42_switch_handle.md R311 to R313). -/

namespace Sys2Proof.Machine

/-- Encode and latch the codeword (R208, R209): Err(NO_VARIANT) and nothing else where no encoder is bound (60_exceptions.md R407). -/
def encodeOnly (on : Bool) (s : State) : Instance :=
  if s.inst.variant = .none then raiseErr .noVariant s.inst
  else latchCw (encodeCodeword s.params.familyTable s.inst on) s.inst

/-- `switch(on)` (R311): encode, latch, and send the codeword as tri-state symbols; NONE transmits nothing. -/
def switchTo (on : Bool) (s : State) : Instance :=
  if s.inst.variant = .none then raiseErr .noVariant s.inst
  else
    match encodeCodeword s.params.familyTable s.inst on with
    | none => latchCw none s.inst
    | some w => emit (sendTri (snapshot s.inst) w) (latchCw (some w) s.inst)

/-- ENCODE_ON (R210). -/
def execEncodeOn (s : State) : Result := .next (s.withInst (encodeOnly true s))

/-- ENCODE_OFF (R211). -/
def execEncodeOff (s : State) : Result := .next (s.withInst (encodeOnly false s))

/-- SWITCH_ON (R312). -/
def execSwitchOn (s : State) : Result := .next (s.withInst (switchTo true s))

/-- SWITCH_OFF (R313). -/
def execSwitchOff (s : State) : Result := .next (s.withInst (switchTo false s))

end Sys2Proof.Machine
end

