-- ==== Sys2Proof/Machine/Dispatch.lean ====
section
/-! DEFINITION. One command in one atomic step (00_scope.md R16): one arm per constructor. -/

namespace Sys2Proof.Machine

def exec (i : Instr) (s : State) : Host.Outcome State Fault Refusal :=
  match i with
  | .initA => Sys2Proof.Machine.execInitA s
  | .initB => Sys2Proof.Machine.execInitB s
  | .initC => Sys2Proof.Machine.execInitC s
  | .initD => Sys2Proof.Machine.execInitD s
  | .txInit => Sys2Proof.Machine.execTxInit s
  | .enableTransmit => Sys2Proof.Machine.execEnableTransmit s
  | .setPulseLength => Sys2Proof.Machine.execSetPulseLength s
  | .setRepeatTransmit => Sys2Proof.Machine.execSetRepeatTransmit s
  | .setProtocol => Sys2Proof.Machine.execSetProtocol s
  | .switchOn => Sys2Proof.Machine.execSwitchOn s
  | .switchOff => Sys2Proof.Machine.execSwitchOff s
  | .encodeOn => Sys2Proof.Machine.execEncodeOn s
  | .encodeOff => Sys2Proof.Machine.execEncodeOff s
  | .sendTristate => Sys2Proof.Machine.execSendTristate s
  | .sendBinaryString => Sys2Proof.Machine.execSendBinaryString s
  | .sendBytes => Sys2Proof.Machine.execSendBytes s

end Sys2Proof.Machine
end

