-- ==== Sys2Proof/Machine/Mmio.lean ====
section
/-! DEFINITION. The MMIO space of one instance: the address map, reads and writes (20_memory.md R80 to R88). A write to CMD is not here:
it runs a command (Turns.lean). -/

namespace Sys2Proof.Machine

/-- What an MMIO offset names (R82). -/
inductive Target where
  | cmd | status | arg0 | arg1 | arg2 | pin | pulse | repeatCount | protocol | paramCh | paramN0 | paramN1
  | paramA0 | paramA1 | paramA2 | cw0 | cw1 | cw2
  /-- The data buffer word whose lowest byte is DBUF[index]. -/
  | dbuf (index : Nat)
  | reserved
  | misaligned
deriving DecidableEq, Repr

/-- The registers of the address map (R82). -/
def registerMap : List (Nat × Target) :=
  [(0x000, .cmd), (0x004, .status), (0x008, .arg0), (0x00C, .arg1), (0x010, .arg2),
   (0x020, .pin), (0x024, .pulse), (0x028, .repeatCount), (0x02C, .protocol),
   (0x030, .paramCh), (0x034, .paramN0), (0x038, .paramN1),
   (0x040, .paramA0), (0x044, .paramA1), (0x048, .paramA2),
   (0x050, .cw0), (0x054, .cw1), (0x058, .cw2)]

/-- Where an offset of the window leads (R81, R82, R83). -/
def targetOf (size offset : Nat) : Target :=
  if offset % 4 ≠ 0 then .misaligned
  else
    match registerMap.lookup offset with
    | some t => t
    | none => if 0x100 ≤ offset ∧ offset < 0x100 + size then .dbuf (offset - 0x100) else .reserved

/-- The value a read returns (R82, R85); CMD, reserved and misaligned offsets read as 0 (R81, R82, R83). -/
def readTarget (latch : Bool) (i : Instance) : Target → Word
  | .cmd => 0
  | .status => statusWord latch i
  | .arg0 => i.arg0
  | .arg1 => i.arg1
  | .arg2 => i.arg2
  | .pin => i.pin
  | .pulse => i.pulse
  | .repeatCount => i.repeatCount
  | .protocol => i.protocol
  | .paramCh => i.paramCh.zeroExtend 32
  | .paramN0 => i.paramN0
  | .paramN1 => i.paramN1
  | .paramA0 => wordAt i.paramA 0
  | .paramA1 => wordAt i.paramA 4
  | .paramA2 => packWord (byteAt i.paramA 8) (byteAt i.paramA 9) 0 0
  | .cw0 => wordAt i.cw 0
  | .cw1 => wordAt i.cw 4
  | .cw2 => wordAt i.cw 8
  | .dbuf k => packWord (i.dbufByte k) (i.dbufByte (k + 1)) (i.dbufByte (k + 2)) (i.dbufByte (k + 3))
  | .reserved => 0
  | .misaligned => 0

/-- The instance after a read: no read has a side effect (R88), but a misaligned one raises BAD_ACCESS (R81). -/
def afterRead (i : Instance) : Target → Instance
  | .misaligned => raiseErr .badAccess i
  | _ => i

/-- Perform a host read: the value is recorded with its offset (00_scope.md R9 (b)). -/
def mmioRead (offset : Nat) (s : State) : State :=
  let t := targetOf s.params.dbufSize offset
  let i := afterRead s.inst t
  s.withInst { i with out := { i.out with reads := i.out.reads ++ [(offset, readTarget s.latch s.inst t)] } }

/-- The instance after a host write of a word to a place other than CMD (R82 to R87); a place that takes no write raises
BAD_ACCESS. -/
def afterWrite (v : Word) (i : Instance) : Target → Instance
  | .cmd => i
  | .arg0 => { i with arg0 := v }
  | .arg1 => { i with arg1 := v }
  | .arg2 => { i with arg2 := v }
  | .dbuf k => { i with dbuf := writeDbufWord i.dbuf k v }
  | .status | .pin | .pulse | .repeatCount | .protocol | .paramCh | .paramN0 | .paramN1
  | .paramA0 | .paramA1 | .paramA2 | .cw0 | .cw1 | .cw2 => raiseErr .badAccess i
  | .reserved | .misaligned => raiseErr .badAccess i

/-- Perform a host write to a place other than CMD. -/
def mmioWrite (offset : Nat) (v : Word) (s : State) : State :=
  s.withInst (afterWrite v s.inst (targetOf s.params.dbufSize offset))

end Sys2Proof.Machine
end

