-- ==== Sys2Proof/Machine/Turns.lean ====
section
/-! DEFINITION. What each agent does in its turn: the host's accesses, the CMD write that runs a command, the sequencer, the
capability, and power-on reset (00_scope.md R8; 10_state.md R48; 20_memory.md R90, R93, R94). -/

namespace Sys2Proof.Machine

/-- A word performed as a CMD write (30_encoding.md R121): a command runs, any other word raises ILLEGAL_CMD and does nothing
else (R125). -/
def runCommand (w : Word) (s : State) : Result :=
  match decode w with
  | .ok i => exec i s
  | .error _ => .next (s.withInst (raiseErr .illegalCmd s.inst))

/-- The host of the selected instance with `rest` left to do. -/
def State.withHost (s : State) (rest : List Access) : State :=
  s.withInst { s.inst with out := { s.inst.out with host := rest } }

/-- The host's turn: a read is answered at once; a write is held, neither performed nor dropped, while BUSY = 1 (R90), and the
accesses behind it wait (R93 (a), log 13). -/
def hostTurn (s : State) : Result :=
  match s.inst.out.host with
  | [] => .next s
  | .read offset :: rest =>
    if offset < 0x1000 then .next (mmioRead offset (s.withHost rest)) else .fault .outsideWindow
  | .write offset v :: rest =>
    if 0x1000 ≤ offset then .fault .outsideWindow
    else if s.inst.busy then .next s
    else if targetOf s.params.dbufSize offset = .cmd then runCommand v (s.withHost rest)
    else .next (mmioWrite offset v (s.withHost rest))

/-- What one turn does. -/
def takeTurn (t : Turn) (s : State) : Result :=
  match t with
  | .host => hostTurn s
  | .sequencer => .next (present s)
  | .gpio => .next (acknowledge s)
  | .hang => .next (hangGpio s)
  | .select k => .next (selectInstance k s)
  | .powerOn => .next (powerOnReset s)

/-- Who moves where no turn is listed (log 2): as in the source's "Single-threaded, synchronous, blocking" model (R8), a presented event
is acknowledged, then the next event is presented, and only then the host goes on. -/
def defaultTurn (i : Instance) : Turn :=
  if i.await && !i.out.hung then .gpio
  else if !i.await && !i.queue.isEmpty then .sequencer
  else .host

/-- Who moves next. -/
def nextTurn (s : State) : Turn :=
  match s.turns with
  | [] => defaultTurn s.inst
  | t :: _ => t

end Sys2Proof.Machine
end

