-- ==== Sys2Proof/Machine/Step.lean ====
section
/-! DEFINITION. One step of the platform, and the placing of one command for it. -/

namespace Sys2Proof.Machine

/-- One step: the first listed turn is used up and its agent moves. -/
def step (s : State) : Host.Outcome State Fault Refusal :=
  takeTurn (nextTurn s) { s with turns := s.turns.tail }

/-- Place a command word so that the very next step runs it (log 1): the host of the selected instance writes it to CMD as its next
access, it is the host's turn, and the sequencer is idle, since a write is held while it is not (20_memory.md R90). -/
def State.withFetchWord (s : State) (nbits w : Nat) : State :=
  { s with
    inst := { s.inst with
      queue := []
      await := false
      out := { s.inst.out with host := .write 0x000 (BitVec.ofNat 32 (w % 2 ^ nbits)) :: s.inst.out.host } }
    turns := .host :: s.turns }

end Sys2Proof.Machine
end

