-- ==== Sys2Proof/Machine/Asm.lean ====
section
/-! DEFINITION. The assembler syntax and its expansion to MMIO accesses (30_encoding.md R130 to R133). -/

namespace Sys2Proof.Machine

/-! ### Expansion (R131 to R133) -/

/-- The mnemonic of a command (R124). -/
def mnemonic : Instr → String
  | .initA => "INIT_A"
  | .initB => "INIT_B"
  | .initC => "INIT_C"
  | .initD => "INIT_D"
  | .txInit => "TX_INIT"
  | .enableTransmit => "ENABLE_TRANSMIT"
  | .setPulseLength => "SET_PULSE_LENGTH"
  | .setRepeatTransmit => "SET_REPEAT_TRANSMIT"
  | .setProtocol => "SET_PROTOCOL"
  | .switchOn => "SWITCH_ON"
  | .switchOff => "SWITCH_OFF"
  | .encodeOn => "ENCODE_ON"
  | .encodeOff => "ENCODE_OFF"
  | .sendTristate => "SEND_TRISTATE"
  | .sendBinaryString => "SEND_BINARY_STRING"
  | .sendBytes => "SEND_BYTES"

/-- `enc(a)`: the word of an operand (R131). -/
def operandWord : Operand → Word
  | .int n => BitVec.ofInt 32 n
  | .char c => c.zeroExtend 32
  | .ptr i => BitVec.ofNat 32 i

/-- A command's MMIO writes (R131): its operands to ARG0, ARG1, ARG2, then the command word to CMD. -/
def expandCommand (i : Instr) (ops : List Operand) : List Access :=
  List.zipWith (fun offset o => .write offset (operandWord o)) [0x008, 0x00C, 0x010] ops ++ [.write 0x000 (encode i)]

/-- The accesses that put bytes into the data buffer from an index on (R132): one read and one write of each word they touch,
the word's other bytes kept. `current` is what the reads return: the buffer's bytes, which only the host changes. -/
def expandBytes (current : Nat → Byte) (start : Nat) (bytes : List Byte) : List Access :=
  let new := fun k => if start ≤ k then bytes.getD (k - start) (current k) else current k
  if bytes = [] then []
  else
    (List.range ((start + bytes.length - 1) / 4 + 1 - start / 4)).flatMap fun j =>
      let k := 4 * (start / 4 + j)
      [.read (0x100 + k), .write (0x100 + k) (packWord (new k) (new (k + 1)) (new (k + 2)) (new (k + 3)))]

/-- The MMIO accesses of an assembler line, for the instance it is meant for (R131, R132). -/
def expandLine (i : Instance) : AsmLine → List Access
  | .command c ops => expandCommand c ops
  | .dbuf start text => expandBytes i.dbufByte start (text ++ [chNul])
  | .dbufb start bytes => expandBytes i.dbufByte start bytes

/-- The assembler lines of a call of the source's API (R133); the two destroy calls have none (00_scope.md R5 (c)). `transmitter_send_bytes`
puts data[0] to data[n-1] into the data buffer and hands n on as it is, so n ≤ 0 puts none there and stays n; what a call with fewer
than n bytes gives is the model's choice (DESIGN CHOICE, log 22). -/
def expandCall : SourceCall → List AsmLine
  | .initVariantA g d gi di => [.dbuf gi g, .dbuf di d, .command .initA [.ptr gi, .ptr di]]
  | .initVariantB a c => [.command .initB [.int a, .int c]]
  | .initVariantC f g d => [.command .initC [.char f, .int g, .int d]]
  | .initVariantD g d => [.command .initD [.char g, .int d]]
  | .enableTransmit pin => [.command .enableTransmit [.int pin]]
  | .switchOn => [.command .switchOn []]
  | .switchOff => [.command .switchOff []]
  | .setPulseLength us => [.command .setPulseLength [.int us]]
  | .setRepeatTransmit n => [.command .setRepeatTransmit [.int n]]
  | .setProtocol p => [.command .setProtocol [.int p]]
  | .transmitterInit pin => [.command .txInit [.int pin]]
  | .transmitterSendBinaryString bits i => [.dbuf i bits, .command .sendBinaryString [.ptr i]]
  | .transmitterSendBytes data n i => [.dbufb i (data.take n.toNat), .command .sendBytes [.ptr i, .int n]]
  | .destroy => []
  | .transmitterDestroy => []

/-! ### Text (R130): ASCII codes, as in R128. R130 and R132 give operand spellings and examples but no line layout: the blanks, the
closing quote and the spelling of an index and of a directive's bytes are the model's choice (DESIGN CHOICE, logs 20, 21 and 23). -/

/-- The value of a digit, decimal or hexadecimal; hex letters in either case (DESIGN CHOICE, log 21). -/
def digitValue (b : Byte) : Option Nat :=
  if 0x30 ≤ b ∧ b ≤ 0x39 then some (b.toNat - 0x30)
  else if 0x41 ≤ b ∧ b ≤ 0x46 then some (b.toNat - 0x41 + 10)
  else if 0x61 ≤ b ∧ b ≤ 0x66 then some (b.toNat - 0x61 + 10)
  else none

/-- Read digits of a base from the front of a text; `seen` says whether one was read. -/
def parseDigits (base acc : Nat) (seen : Bool) : List Byte → Option (Nat × List Byte)
  | [] => if seen then some (acc, []) else none
  | b :: rest =>
    match digitValue b with
    | some d =>
      if d < base then parseDigits base (acc * base + d) true rest
      else if seen then some (acc, b :: rest) else none
    | none => if seen then some (acc, b :: rest) else none

/-- An integer without its sign: `0x` and hex digits, or decimal digits (R130). -/
def parseMagnitude : List Byte → Option (Nat × List Byte)
  | 0x30 :: 0x78 :: rest => parseDigits 16 0 false rest
  | l => parseDigits 10 0 false l

/-- One operand (R130): `'c'`, `@i`, or an integer, negative or not. R130 does not say how the index of `@i` is spelled: the model takes it in
decimal or `0x` hex, without a sign (DESIGN CHOICE, log 23). -/
def parseOperand : List Byte → Option (Operand × List Byte)
  | 0x27 :: c :: 0x27 :: rest => some (.char c, rest)
  | 0x40 :: rest => (parseMagnitude rest).map fun r => (.ptr r.1, r.2)
  | 0x2D :: rest => (parseMagnitude rest).map fun r => (.int (-(r.1 : Int)), r.2)
  | l => (parseMagnitude l).map fun r => (.int r.1, r.2)

/-- A text without its leading blanks; a blank is 0x20 alone (DESIGN CHOICE, log 21). -/
def skipSpaces (l : List Byte) : List Byte := l.dropWhile (· == 0x20)

/-- One or more operands separated by commas, and nothing after them; `fuel` bounds their number. -/
def parseOperands : Nat → List Byte → Option (List Operand)
  | 0, _ => none
  | fuel + 1, l =>
    match parseOperand (skipSpaces l) with
    | none => none
    | some (o, rest) =>
      match skipSpaces rest with
      | [] => some [o]
      | 0x2C :: rest' => (parseOperands fuel rest').map (o :: ·)
      | _ => none

/-- The commands, in the order of R124. -/
def allCommands : List Instr :=
  [.initA, .initB, .initC, .initD, .txInit, .enableTransmit, .setPulseLength, .setRepeatTransmit, .setProtocol,
   .switchOn, .switchOff, .encodeOn, .encodeOff, .sendTristate, .sendBinaryString, .sendBytes]

/-- A byte of `.dbufb` (R132): R132 does not say how b0, b1, ... are spelled; the model takes an integer of R130 from 0 to 255 and nothing else
(DESIGN CHOICE, log 20). -/
def operandByte : Operand → Option Byte
  | .int n => if 0 ≤ n ∧ n ≤ 255 then some (BitVec.ofInt 8 n) else none
  | _ => none

/-- The rest of `.dbuf` after its index: a comma, then the text in double quotes (R132). The line's last byte is the quote that closes the
text, and a quote before it is a character of the text (DESIGN CHOICE, log 21). -/
def parseQuoted (l : List Byte) : Option (List Byte) :=
  match skipSpaces l with
  | 0x2C :: rest =>
    match skipSpaces rest with
    | 0x22 :: body => if body.getLast? = some 0x22 then some body.dropLast else none
    | _ => none
  | _ => none

/-- One assembler line (R130, R132); the index of a directive is spelled as that of `@i` (DESIGN CHOICE, log 23). Its first byte begins the name, and blanks stand after the name, around operands and after the last of
them (DESIGN CHOICE, log 21). -/
def parseLine (l : List Byte) : Option AsmLine :=
  let name := l.takeWhile (· != 0x20)
  let rest := skipSpaces (l.dropWhile (· != 0x20))
  if name = ascii ".dbuf" then
    match parseMagnitude rest with
    | some (i, r) => (parseQuoted r).map (AsmLine.dbuf i)
    | none => none
  else if name = ascii ".dbufb" then
    match parseOperands l.length rest with
    | some (.int i :: bytes) => if 0 ≤ i then (bytes.mapM operandByte).map (AsmLine.dbufb i.toNat) else none
    | _ => none
  else
    match allCommands.find? (fun c => name == ascii (mnemonic c)) with
    | none => none
    | some c => if rest = [] then some (.command c []) else (parseOperands l.length rest).map (AsmLine.command c)

end Sys2Proof.Machine
end

