-- ==== Sys2Proof/Safety.lean ====
section
/-! DEFINITION. What a safe run is, in the terms the claims use: the legal states, the premise of 60_exceptions.md R421, and the
measures of event lists. -/

namespace Sys2Proof.Machine

/-- The premise a claim about a run takes (R421): no interface error is recorded in any instance. -/
abbrev State.errFree (s : State) : Prop := ∀ i ∈ s.instances, i.err = false

/-- An event names a pin only where the pin is enabled (20_memory.md R102; 42_switch_handle.md R307). -/
def Event.legal : Event → Bool
  | .init => true
  | .cfgOut p => decide (s32 p ≠ -1)
  | .write p _ => decide (s32 p ≠ -1)
  | .delay _ => true

/-- A codeword: twelve symbols over '0', '1' and 'F' (40_codeword_encoder.md R212; 10_state.md R50). -/
abbrev isCodeword (w : List Byte) : Prop := w.length = 12 ∧ ∀ c ∈ w, c ∈ triAlphabet

/-- ERRCODE is 0 exactly while ERR is 0 (10_state.md R33, R37). -/
abbrev Instance.errWf (i : Instance) : Prop := i.err = false ↔ i.errCode = .noError

/-- CW holds its reset bytes or a codeword, and a codeword while CW_VALID = 1, which needs a variant (10_state.md R33, R35, R45, R49). -/
abbrev Instance.cwWf (i : Instance) : Prop :=
  (i.cw = List.replicate 12 0 ∨ isCodeword i.cw) ∧ (i.cwValid = true → isCodeword i.cw ∧ i.variant ≠ .none)

/-- The data buffer is in canonical form, and PARAM_A has its ten bytes (10_state.md R43, R46). -/
abbrev Instance.storeWf (size : Nat) (i : Instance) : Prop := Memory.wf size i.dbuf ∧ i.paramA.length = 10

/-- Every event pending or presented is legal (20_memory.md R102). -/
abbrev Instance.eventsWf (i : Instance) : Prop := ∀ e ∈ i.queue ++ i.out.events, e.legal = true

/-- A legal instance of a platform with data buffers of `size` bytes. -/
abbrev Instance.wf (size : Nat) (i : Instance) : Prop := i.errWf ∧ i.cwWf ∧ i.storeWf size ∧ i.eventsWf

/-- A legal state: the parameters of R7, every instance legal, and LATCH set exactly where some instance has presented INIT
since power-on (10_state.md R47). -/
abbrev State.wf (s : State) : Prop :=
  s.params.wf = true ∧ (∀ i ∈ s.instances, i.wf s.params.dbufSize)
    ∧ (s.latch = true ↔ ∃ i ∈ s.instances, Event.init ∈ i.out.events)

/-- How many INIT events an instance has pending or presented. -/
def Instance.initCount (i : Instance) : Nat := (i.queue ++ i.out.events).count .init

/-- A platform of one instance that brings the GPIO up at most once per power-on (60_exceptions.md R417): no instance beside it, at most
one INIT pending or presented, and the bit LATCH set once one is presented. -/
abbrev State.singleBringUp (s : State) : Prop :=
  s.before = [] ∧ s.after = [] ∧ s.inst.initCount ≤ 1 ∧ (s.latch = true ↔ Event.init ∈ s.inst.out.events)

/-- The sum of the DELAY operands of an event list, in microseconds (70_reset_and_hazards.md R511, R513). -/
def delaySum : List Event → Int
  | [] => 0
  | .delay d :: l => d.toInt + delaySum l
  | _ :: l => delaySum l

/-- The reserved offsets of the address map (20_memory.md R82, R83). -/
abbrev reservedOffset (size offset : Nat) : Prop :=
  offset % 4 = 0 ∧ offset < 0x1000 ∧
    (0x014 ≤ offset ∧ offset ≤ 0x01C ∨ offset = 0x03C ∨ offset = 0x04C ∨ 0x05C ≤ offset ∧ offset ≤ 0x0FC ∨ 0x100 + size ≤ offset)

/-- The host of the selected instance is the next to move and makes access `a`, with `rest` to follow. -/
abbrev State.hostAbout (s : State) (a : Access) (rest : List Access) : Prop :=
  nextTurn s = .host ∧ s.inst.out.host = a :: rest

/-- The state in which the host has moved on to `rest` and the turn is used up, and nothing else has changed. -/
def State.hostMoved (s : State) (rest : List Access) : State := State.withHost { s with turns := s.turns.tail } rest

/-- The state in which the turn is used up and nothing else has changed. -/
def State.turnUsed (s : State) : State := { s with turns := s.turns.tail }

/-- `k` steps in a row, stopping at a fault or a refusal. -/
def stepN : Nat → State → Result
  | 0, s => .next s
  | k + 1, s =>
    match step s with
    | .next t => stepN k t
    | .fault r => .fault r
    | .refused r => .refused r

/-- The instance has the values 10_state.md R49 gives after power-on reset; the contents of DBUF are unspecified there. -/
abbrev Instance.atReset (i : Instance) : Prop :=
  i.arg0 = 0 ∧ i.arg1 = 0 ∧ i.arg2 = 0 ∧ i.cwValid = false ∧ i.err = false ∧ i.errCode = .noError ∧ i.variant = .none
    ∧ i.pin = 0xFFFFFFFF ∧ i.pulse = 350 ∧ i.repeatCount = 10 ∧ i.protocol = 1
    ∧ i.paramCh = 0 ∧ i.paramN0 = 0 ∧ i.paramN1 = 0 ∧ i.paramA = List.replicate 10 0 ∧ i.cw = List.replicate 12 0
    ∧ i.queue = [] ∧ i.await = false

/-- The event is a WRITE. -/
def Event.isWrite : Event → Bool
  | .write _ _ => true
  | _ => false

/-- The DELAY events of a list, in order (41_pulse_transmitter.md R252). -/
def delaysOf (l : List Event) : List Event := l.filter fun e => match e with | .delay _ => true | _ => false

end Sys2Proof.Machine
end

