-- ==== Sys2Proof/Certificates/Slice0/Obligations.lean ====
section
/-! DEFINITION. The statements about RCSW-CORE that the provers are given. -/

open Sys2Proof Sys2Proof.Machine

/-! ### Command words -/

/-- 30_encoding.md R121, R124, R125: a few words of the opcode table, and three words that are no command. -/
def Obligations.DecoderReadsTableWords : Prop :=
  decode 0x00000001 = .ok .initA ∧ decode 0x00000005 = .ok .txInit ∧ decode 0x00000008 = .ok .enableTransmit
    ∧ decode 0x0000000B = .ok .setProtocol ∧ decode 0x00000010 = .ok .switchOn ∧ decode 0x00000013 = .ok .encodeOff
    ∧ decode 0x00000022 = .ok .sendBytes ∧ decode 0x00000000 = .error .reservedOpcode
    ∧ decode 0x00000023 = .error .reservedOpcode ∧ decode 0x00000110 = .error .reservedBits

/-- R124: a word selects a command exactly when it is the zero-extended opcode; the sixteen words, mnemonics and formats are the table's; the two
destroy calls have no command. -/
def Obligations.WordSelectsCommandExactlyWhenEncoded : Prop :=
  (∀ (w : Word) (i : Instr), decode w = .ok i ↔ w = encode i)
    ∧ allCommands.map encode =
      [0x01, 0x02, 0x03, 0x04, 0x05, 0x08, 0x09, 0x0A, 0x0B, 0x10, 0x11, 0x12, 0x13, 0x20, 0x21, 0x22]
    ∧ allCommands.map mnemonic =
      ["INIT_A", "INIT_B", "INIT_C", "INIT_D", "TX_INIT", "ENABLE_TRANSMIT", "SET_PULSE_LENGTH", "SET_REPEAT_TRANSMIT", "SET_PROTOCOL",
       "SWITCH_ON", "SWITCH_OFF", "ENCODE_ON", "ENCODE_OFF", "SEND_TRISTATE", "SEND_BINARY_STRING", "SEND_BYTES"]
    ∧ allCommands.map formatOf = [.p2, .i2, .ci2, .ci1, .i1, .i1, .i1, .i1, .i1, .n, .n, .n, .n, .s, .s, .pn]
    ∧ expandCall .destroy = [] ∧ expandCall .transmitterDestroy = []

/-- R125: a reserved word written to CMD records ILLEGAL_CMD (the first error's code is kept, R406) and changes nothing else. -/
def Obligations.ReservedWordOnlyRecordsIllegalCmd : Prop :=
  ∀ (s : State) (w : Word) (rest : List Access), s.hostAbout (.write 0x000 w) rest → s.inst.busy = false →
    w.toNat ∉ [0x01, 0x02, 0x03, 0x04, 0x05, 0x08, 0x09, 0x0A, 0x0B, 0x10, 0x11, 0x12, 0x13, 0x20, 0x21, 0x22] →
    step s = .next { s.hostMoved rest with
      inst := { (s.hostMoved rest).inst with
        err := true, errCode := if s.inst.err then s.inst.errCode else .illegalCmd } }

/-- R121, 00_scope.md R16: when the host's CMD write is performed, the step is the execution of the command the word decodes to. -/
def Obligations.StepRunsDecodedCommand : Prop :=
  ∀ (s : State) (w : Word) (i : Instr) (rest : List Access), s.hostAbout (.write 0x000 w) rest → s.inst.busy = false →
    decode w = .ok i → step s = exec i (s.hostMoved rest)

/-- The model's placing of a command (log 1): the very next step runs it, on the selected instance with an idle sequencer. -/
def Obligations.PlacedCommandRunsNext : Prop :=
  ∀ (s : State) (i : Instr), step (s.withFetchWord 32 (encode i).toNat) =
    exec i { s with inst := { s.inst with queue := [], await := false } }

/-! ### MMIO -/

/-- 20_memory.md R90: while BUSY = 1 a write is neither performed nor dropped; with BUSY = 0 it is performed; a read is never held and
returns the current value. -/
def Obligations.WritesHeldExactlyWhileBusy : Prop :=
  (∀ (s : State) (offset : Nat) (v : Word) (rest : List Access), offset < 0x1000 → s.hostAbout (.write offset v) rest →
    (s.inst.busy = true → step s = .next s.turnUsed)
      ∧ (s.inst.busy = false → offset = 0x000 → step s = runCommand v (s.hostMoved rest))
      ∧ (s.inst.busy = false → offset ≠ 0x000 → step s = .next (mmioWrite offset v (s.hostMoved rest))))
    ∧ (∀ (s : State) (offset : Nat) (rest : List Access), offset < 0x1000 → s.hostAbout (.read offset) rest →
      ∃ t, step s = .next t ∧ t.inst.out.host = rest
        ∧ t.inst.out.reads = s.inst.out.reads ++ [(offset, readTarget s.latch s.inst (targetOf s.params.dbufSize offset))])

/-- 20_memory.md R81: a misaligned read returns 0, a misaligned write changes nothing, and both raise BAD_ACCESS. -/
def Obligations.MisalignedAccessRaisesBadAccess : Prop :=
  ∀ (s : State) (offset : Nat) (rest : List Access), offset < 0x1000 → offset % 4 ≠ 0 →
    (s.hostAbout (.read offset) rest → step s = .next { s.hostMoved rest with
      inst := { (s.hostMoved rest).inst with
        err := true, errCode := if s.inst.err then s.inst.errCode else .badAccess
        out := { (s.hostMoved rest).inst.out with reads := s.inst.out.reads ++ [(offset, 0)] } } })
    ∧ (∀ v, s.hostAbout (.write offset v) rest → s.inst.busy = false → step s = .next { s.hostMoved rest with
      inst := { (s.hostMoved rest).inst with
        err := true, errCode := if s.inst.err then s.inst.errCode else .badAccess } })

/-- 20_memory.md R83: a read of a reserved offset returns 0 and records no error; a write there changes nothing and raises BAD_ACCESS. -/
def Obligations.ReservedOffsetsReadZeroAndRejectWrites : Prop :=
  ∀ (s : State) (offset : Nat) (rest : List Access), reservedOffset s.params.dbufSize offset →
    (s.hostAbout (.read offset) rest → step s = .next { s.hostMoved rest with
      inst := { (s.hostMoved rest).inst with
        out := { (s.hostMoved rest).inst.out with reads := s.inst.out.reads ++ [(offset, 0)] } } })
    ∧ (∀ v, s.hostAbout (.write offset v) rest → s.inst.busy = false → step s = .next { s.hostMoved rest with
      inst := { (s.hostMoved rest).inst with
        err := true, errCode := if s.inst.err then s.inst.errCode else .badAccess } })

/-- 20_memory.md R84: a write to a read-only register changes nothing and raises BAD_ACCESS; the host changes the configuration registers
only through commands, that is, by no other access than a write to CMD. -/
def Obligations.ReadOnlyRegistersRejectWrites : Prop :=
  (∀ (s : State) (offset : Nat) (v : Word) (rest : List Access),
    offset ∈ [0x004, 0x020, 0x024, 0x028, 0x02C, 0x030, 0x034, 0x038, 0x040, 0x044, 0x048, 0x050, 0x054, 0x058] →
    s.hostAbout (.write offset v) rest → s.inst.busy = false →
    step s = .next { s.hostMoved rest with
      inst := { (s.hostMoved rest).inst with
        err := true, errCode := if s.inst.err then s.inst.errCode else .badAccess } })
    ∧ ∀ s t : State, step s = .next t → nextTurn s = .host → (∀ v rest, s.inst.out.host ≠ .write 0x000 v :: rest) →
      t.inst.variant = s.inst.variant ∧ t.inst.pin = s.inst.pin ∧ t.inst.pulse = s.inst.pulse
        ∧ t.inst.repeatCount = s.inst.repeatCount ∧ t.inst.protocol = s.inst.protocol ∧ t.inst.paramCh = s.inst.paramCh
        ∧ t.inst.paramN0 = s.inst.paramN0 ∧ t.inst.paramN1 = s.inst.paramN1 ∧ t.inst.paramA = s.inst.paramA
        ∧ t.inst.cw = s.inst.cw ∧ t.inst.cwValid = s.inst.cwValid

/-- 20_memory.md R82, R88: an aligned read, of whatever offset, changes nothing but the record of reads, and the registers of the map read as
their values. -/
def Obligations.AlignedReadsReturnRegisterValues : Prop :=
  (∀ (s : State) (offset : Nat) (rest : List Access), offset < 0x1000 → offset % 4 = 0 → s.hostAbout (.read offset) rest →
    step s = .next { s.hostMoved rest with
      inst := { (s.hostMoved rest).inst with
        out := { (s.hostMoved rest).inst.out with
          reads := s.inst.out.reads ++ [(offset, readTarget s.latch s.inst (targetOf s.params.dbufSize offset))] } } })
    ∧ ∀ (latch : Bool) (i : Instance) (size offset : Nat) (v : Word),
      (offset, v) ∈ [(0x000, 0), (0x004, statusWord latch i), (0x008, i.arg0), (0x00C, i.arg1), (0x010, i.arg2),
        (0x020, i.pin), (0x024, i.pulse), (0x028, i.repeatCount), (0x02C, i.protocol),
        (0x030, i.paramCh.zeroExtend 32), (0x034, i.paramN0), (0x038, i.paramN1)] →
      readTarget latch i (targetOf size offset) = v

/-- 10_state.md R31, 20_memory.md R82: a write of an argument register stores the word there and changes nothing else. -/
def Obligations.ArgumentRegisterWritesStoreTheWord : Prop :=
  ∀ (s : State) (v : Word) (rest : List Access), s.inst.busy = false →
    (s.hostAbout (.write 0x008 v) rest →
      step s = .next { s.hostMoved rest with inst := { (s.hostMoved rest).inst with arg0 := v } })
    ∧ (s.hostAbout (.write 0x00C v) rest →
      step s = .next { s.hostMoved rest with inst := { (s.hostMoved rest).inst with arg1 := v } })
    ∧ (s.hostAbout (.write 0x010 v) rest →
      step s = .next { s.hostMoved rest with inst := { (s.hostMoved rest).inst with arg2 := v } })

/-- 20_memory.md R85, R87: a write of a data buffer word stores its four bytes, lowest index in bits 7:0, and every other byte of the
buffer and every other part of the state stays. -/
def Obligations.DbufWordWriteStoresFourBytes : Prop :=
  ∀ (s : State) (k : Nat) (v : Word) (rest : List Access), s.params.wf = true → 4 * k < s.params.dbufSize →
    s.hostAbout (.write (0x100 + 4 * k) v) rest → s.inst.busy = false →
    ∃ t, step s = .next t
      ∧ (∀ j, j < 4 → t.inst.dbufByte (4 * k + j) = v.extractLsb' (8 * j) 8)
      ∧ (∀ m, m < 4 * k ∨ 4 * k + 4 ≤ m → t.inst.dbufByte m = s.inst.dbufByte m)
      ∧ t = { s.hostMoved rest with inst := { (s.hostMoved rest).inst with dbuf := t.inst.dbuf } }

/-- 20_memory.md R85: a read of a data buffer, PARAM_A or CW word returns the four bytes packed with the lowest index in bits 7:0;
PARAM_A2 holds two bytes and 0 above them. -/
def Obligations.WordReadsPackBytesLittleEndian : Prop :=
  ∀ (s : State), s.params.wf = true →
    (∀ k j, 4 * k < s.params.dbufSize → j < 4 →
      (readTarget s.latch s.inst (targetOf s.params.dbufSize (0x100 + 4 * k))).extractLsb' (8 * j) 8 = s.inst.dbufByte (4 * k + j))
    ∧ (s.inst.paramA.length = 10 → ∀ j, (h : j < s.inst.paramA.length) →
      (readTarget s.latch s.inst (targetOf s.params.dbufSize (0x040 + 4 * (j / 4)))).extractLsb' (8 * (j % 4)) 8 = s.inst.paramA[j])
    ∧ (readTarget s.latch s.inst (targetOf s.params.dbufSize 0x048)).extractLsb' 16 16 = 0
    ∧ (s.inst.cw.length = 12 → ∀ j, (h : j < s.inst.cw.length) →
      (readTarget s.latch s.inst (targetOf s.params.dbufSize (0x050 + 4 * (j / 4)))).extractLsb' (8 * (j % 4)) 8 = s.inst.cw[j])

/-- 10_state.md R33, R34, R36: the layout of STATUS, with the codes of R38 and 60_exceptions.md R405. -/
def Obligations.StatusWordLayout : Prop :=
  (∀ (latch : Bool) (i : Instance),
    ((statusWord latch i).getLsbD 0 = true ↔ i.queue ≠ [] ∨ i.await = true)
      ∧ (statusWord latch i).getLsbD 1 = i.cwValid
      ∧ (statusWord latch i).getLsbD 2 = latch
      ∧ (statusWord latch i).getLsbD 3 = i.err
      ∧ (statusWord latch i).extractLsb' 4 4 = errCodeBits i.errCode
      ∧ (statusWord latch i).extractLsb' 8 3 = variantBits i.variant
      ∧ (statusWord latch i).extractLsb' 11 21 = 0)
    ∧ [ErrCode.noError, .illegalCmd, .badAccess, .dbufRange, .noVariant].map errCodeBits = [0, 1, 2, 3, 4]
    ∧ [Variant.none, .a, .b, .c, .d].map variantBits = [0, 1, 2, 3, 4]

/-- The model's choice (log 12): an access outside the 4 KiB window stops the machine with a fault, at any time. -/
def Obligations.AccessOutsideWindowFaults : Prop :=
  ∀ (s : State) (offset : Nat) (v : Word) (rest : List Access), 0x1000 ≤ offset →
    s.hostAbout (.read offset) rest ∨ s.hostAbout (.write offset v) rest → step s = .fault .outsideWindow

/-! ### The sequencer and the capability -/

/-- 10_state.md R48, R47: with AWAIT = 0 the sequencer's turn presents the head of Q and sets AWAIT, and LATCH if the event is INIT; with
AWAIT = 1 or an empty Q it does nothing. An acknowledgement clears AWAIT and changes nothing else. -/
def Obligations.SequencerPresentsThenAwaitsAcknowledgement : Prop :=
  (∀ (s : State) (e : Event) (rest : List Event), nextTurn s = .sequencer → s.inst.await = false → s.inst.queue = e :: rest →
    step s = .next { s.turnUsed with
      latch := s.latch || decide (e = .init)
      inst := { s.inst with
        queue := rest, await := true, out := { s.inst.out with events := s.inst.out.events ++ [e] } } })
    ∧ (∀ s : State, nextTurn s = .sequencer → s.inst.await = true ∨ s.inst.queue = [] → step s = .next s.turnUsed)
    ∧ (∀ s : State, nextTurn s = .gpio → s.inst.out.hung = false →
      step s = .next { s.turnUsed with inst := { s.inst with await := false } })

/-- 20_memory.md R93 (c), 10_state.md R48: with no turn listed, which means the model's default order of turns (log 2, DESIGN CHOICE), and a capability
that acknowledges, the queue appears on the event port whole and in order, and the
instance is idle again; LATCH is set if INIT was among the events. -/
def Obligations.QueueDrainsToPortInOrder : Prop :=
  ∀ s : State, s.turns = [] → s.inst.await = false → s.inst.out.hung = false →
    stepN (2 * s.inst.queue.length) s = .next { s with
      latch := s.latch || decide (Event.init ∈ s.inst.queue)
      inst := { s.inst with
        queue := [], out := { s.inst.out with events := s.inst.out.events ++ s.inst.queue } } }

/-- 93_implementation_defined.md S8 (the model's turns, log 2): once the capability never acknowledges, the presented event stays
unacknowledged through every step but a power-on reset and a selection of another instance. -/
def Obligations.HungCapabilityKeepsInstanceBusy : Prop :=
  ∀ s t : State, s.inst.out.hung = true → s.inst.await = true → step s = .next t →
    nextTurn s ≠ .powerOn → (∀ k, nextTurn s ≠ .select k) → t.inst.out.hung = true ∧ t.inst.await = true ∧ t.inst.busy = true

/-- 10_state.md R47, 70_reset_and_hazards.md R502: only a presented INIT sets LATCH and only power-on reset clears it. -/
def Obligations.LatchSetByInitClearedByPowerOn : Prop :=
  ∀ s t : State, step s = .next t →
    (s.latch = false → t.latch = true → nextTurn s = .sequencer ∧ s.inst.await = false ∧ ∃ rest, s.inst.queue = .init :: rest)
    ∧ (s.latch = true → t.latch = false → nextTurn s = .powerOn)

/-- 60_exceptions.md R417: the hosts of two different idle instances, the selected one and number k, are about to write ENABLE_TRANSMIT, with
LATCH = 0. Where the second is accepted before the first's INIT is presented, both have INIT pending, and both present it; where the first's
INIT is presented before, the second emits none. -/
def Obligations.BringUpRaceAdmitsTwoInits : Prop :=
  ∀ (s : State) (k : Nat) (other : Instance) (rest rest' : List Access) (later : List Turn),
    s.latch = false → k ≠ s.before.length → s.instances[k]? = some other → s.inst.busy = false → other.busy = false →
    s.inst.out.host = .write 0x000 0x00000008 :: rest → other.out.host = .write 0x000 0x00000008 :: rest' →
    (s.turns = [.host, .select k, .host, .sequencer, .select s.before.length, .sequencer] ++ later →
      ∃ t u : State, stepN 3 s = .next t ∧ t.latch = false
        ∧ (∃ a b, t.instances[s.before.length]? = some a ∧ t.instances[k]? = some b ∧ Event.init ∈ a.queue ∧ Event.init ∈ b.queue)
        ∧ stepN 3 t = .next u ∧ u.latch = true
        ∧ ∃ a b, u.instances[s.before.length]? = some a ∧ u.instances[k]? = some b
          ∧ Event.init ∈ a.out.events ∧ Event.init ∈ b.out.events)
    ∧ (s.turns = [.host, .sequencer, .select k, .host] ++ later →
      ∃ u : State, stepN 4 s = .next u ∧ u.latch = true
        ∧ ∃ a b, u.instances[s.before.length]? = some a ∧ u.instances[k]? = some b
          ∧ Event.init ∈ a.out.events ∧ Event.init ∉ b.queue ∧ b.out.events = other.out.events)

/-- 60_exceptions.md R416, 20_memory.md R94: a step of one instance does not read or change any other instance, and a selection
changes no instance. -/
def Obligations.InstancesShareOnlyLatch : Prop :=
  (∀ s t : State, step s = .next t → nextTurn s ≠ .powerOn → (∀ k, nextTurn s ≠ .select k) →
    t.before = s.before ∧ t.after = s.after
      ∧ ∀ b a : List Instance, step { s with before := b, after := a } = .next { t with before := b, after := a })
    ∧ (∀ (s t : State) (k : Nat), step s = .next t → nextTurn s = .select k →
      t.instances = s.instances ∧ t.latch = s.latch ∧ ∀ i, s.instances[k]? = some i → t.inst = i)

/-! ### Reset -/

/-- 10_state.md R49, 70_reset_and_hazards.md R500: after power-on reset LATCH is 0, and every instance has the values of R49, so that its STATUS reads 0; the
contents of DBUF are unspecified, and the fields that are the model's own are not part of this statement. -/
def Obligations.ResetValues : Prop :=
  State.reset.latch = false ∧ ∀ i ∈ State.reset.instances, i.atReset ∧ statusWord State.reset.latch i = 0

/-- 70_reset_and_hazards.md R500: power-on reset puts every instance to the values of 10_state.md R49, with no event in flight, and LATCH to 0; STATUS reads 0
and the instance is idle. -/
def Obligations.PowerOnResetsEveryInstance : Prop :=
  ∀ s : State, nextTurn s = .powerOn →
    ∃ t, step s = .next t ∧ t.latch = false ∧ t.params = s.params ∧ t.instances.length = s.instances.length
      ∧ ∀ i ∈ t.instances, i.atReset ∧ statusWord t.latch i = 0 ∧ i.busy = false

/-! ### Construction and configuration commands -/

/-- 42_switch_handle.md R301, R300: INIT_A copies five and five data buffer bytes and loads the defaults; where either range passes the end of the
data buffer it records DBUF_RANGE and does nothing else. -/
def Obligations.InitACopiesTenBytes : Prop :=
  encode .initA = 0x00000001 ∧ ∀ s : State,
    (s.params.dbufSize < s.inst.arg0.toNat + 5 ∨ s.params.dbufSize < s.inst.arg1.toNat + 5 →
      exec .initA s = .next { s with inst := { s.inst with
        err := true, errCode := if s.inst.err then s.inst.errCode else .dbufRange } })
    ∧ (s.inst.arg0.toNat + 5 ≤ s.params.dbufSize → s.inst.arg1.toNat + 5 ≤ s.params.dbufSize →
      exec .initA s = .next { s with inst := { s.inst with
      variant := .a, pin := 0xFFFFFFFF, pulse := 350, repeatCount := 10, protocol := 1, cwValid := false
      paramCh := 0, paramN0 := 0, paramN1 := 0
      paramA := (List.range 5).map (fun k => s.inst.dbufByte (s.inst.arg0.toNat + k))
        ++ (List.range 5).map (fun k => s.inst.dbufByte (s.inst.arg1.toNat + k)) } })

/-- 42_switch_handle.md R302, R303, R304, R300, R305: INIT_B, INIT_C and INIT_D load the defaults and store their operands unchecked. -/
def Obligations.InitBcdStoreOperandsUnchecked : Prop :=
  encode .initB = 0x00000002 ∧ encode .initC = 0x00000003 ∧ encode .initD = 0x00000004 ∧ ∀ s : State,
    exec .initB s = .next { s with inst := { s.inst with
      variant := .b, pin := 0xFFFFFFFF, pulse := 350, repeatCount := 10, protocol := 1, cwValid := false
      paramCh := 0, paramN0 := s.inst.arg0, paramN1 := s.inst.arg1, paramA := List.replicate 10 0 } }
    ∧ exec .initC s = .next { s with inst := { s.inst with
      variant := .c, pin := 0xFFFFFFFF, pulse := 350, repeatCount := 10, protocol := 1, cwValid := false
      paramCh := s.inst.arg0.extractLsb' 0 8, paramN0 := s.inst.arg1, paramN1 := s.inst.arg2, paramA := List.replicate 10 0 } }
    ∧ exec .initD s = .next { s with inst := { s.inst with
      variant := .d, pin := 0xFFFFFFFF, pulse := 350, repeatCount := 10, protocol := 1, cwValid := false
      paramCh := s.inst.arg0.extractLsb' 0 8, paramN0 := s.inst.arg1, paramN1 := 0, paramA := List.replicate 10 0 } }

/-- 42_switch_handle.md R306, R300, R307: TX_INIT loads the defaults and the pin; the bring-up events only where TXINIT_GPIO holds. -/
def Obligations.TxInitBuildsStandaloneTransmitter : Prop :=
  encode .txInit = 0x00000005 ∧ ∀ s : State, exec .txInit s = .next { s with inst := { s.inst with
    variant := .none, pin := s.inst.arg0, pulse := 350, repeatCount := 10, protocol := 1, cwValid := false
    paramCh := 0, paramN0 := 0, paramN1 := 0, paramA := List.replicate 10 0
    queue := s.inst.queue ++
      (if s.params.txInitGpio = true ∧ s.latch = false then [Event.init] else [])
      ++ (if s.params.txInitGpio = true ∧ s.inst.arg0.toInt ≠ -1 then [Event.cfgOut s.inst.arg0] else []) } }

/-- 42_switch_handle.md R307: ENABLE_TRANSMIT binds the pin, and emits INIT if LATCH = 0 and then CFGOUT unless the pin is -1. -/
def Obligations.EnableTransmitBindsPinAndBringsUp : Prop :=
  encode .enableTransmit = 0x00000008 ∧ ∀ s : State, exec .enableTransmit s = .next { s with inst := { s.inst with
    pin := s.inst.arg0
    queue := s.inst.queue ++ (if s.latch = false then [Event.init] else [])
      ++ (if s.inst.arg0.toInt ≠ -1 then [Event.cfgOut s.inst.arg0] else []) } }

/-- 42_switch_handle.md R308, R309, R310: the setters store ARG0 without validation and change nothing else. -/
def Obligations.SettersStoreArg0Unvalidated : Prop :=
  encode .setPulseLength = 0x00000009 ∧ encode .setRepeatTransmit = 0x0000000A ∧ encode .setProtocol = 0x0000000B ∧ ∀ s : State,
    exec .setPulseLength s = .next { s with inst := { s.inst with pulse := s.inst.arg0 } }
    ∧ exec .setRepeatTransmit s = .next { s with inst := { s.inst with repeatCount := s.inst.arg0 } }
    ∧ exec .setProtocol s = .next { s with inst := { s.inst with protocol := s.inst.arg0 } }

/-! ### The codeword encoder -/

/-- 40_codeword_encoder.md R201: the n characters of dec2bin, the most significant bit first. -/
def Obligations.Dec2binWritesBitsMsbFirst : Prop :=
  ∀ (n : Nat) (dec : BitVec n) (fill : Byte), (dec2bin dec fill).length = n
    ∧ ∀ j, j < n → (dec2bin dec fill)[j]? = some (if dec.toNat.testBit (n - 1 - j) then 0x31 else fill)

/-- R204: with VARIANT = A the encoder reads the group in PARAM_A[0..4] and the device in PARAM_A[5..9]; the ten inverted characters and the two status symbols of variant A. -/
def Obligations.VariantAInvertsTenCharacters : Prop :=
  (∀ (table : List (List Byte)) (i : Instance) (on : Bool), i.variant = .a →
    encodeCodeword table i on = encodeA (i.paramA.take 5) (i.paramA.drop 5) on)
    ∧ ∀ (g d : List Byte) (on : Bool), g.length = 5 → d.length = 5 →
    ∃ w, encodeA g d on = some w ∧ w.length = 12
      ∧ (∀ j, j < 5 → w[j]? = some (if g[j]? = some 0x30 then 0x46 else 0x30)
        ∧ w[j + 5]? = some (if d[j]? = some 0x30 then 0x46 else 0x30))
      ∧ w[10]? = some (if on then 0x30 else 0x46) ∧ w[11]? = some (if on then 0x46 else 0x30)

/-- R205, with the patterns of R202: with VARIANT = B the encoder reads PARAM_N0 and PARAM_N1; it gives NONE outside 1 to 4, and else two patterns with one '0' each, the padding and the status symbol. -/
def Obligations.VariantBOneZeroPerPattern : Prop :=
  (∀ (table : List (List Byte)) (i : Instance) (on : Bool), i.variant = .b →
    encodeCodeword table i on = encodeB i.paramN0.toInt i.paramN1.toInt on)
    ∧ ∀ (a c : Int) (on : Bool),
    (encodeB a c on = none ↔ a < 1 ∨ 4 < a ∨ c < 1 ∨ 4 < c)
    ∧ ∀ w, encodeB a c on = some w → w.length = 12
      ∧ (∀ j : Nat, j < 4 → w[j]? = some (if (j : Int) = a - 1 then 0x30 else 0x46)
        ∧ w[j + 4]? = some (if (j : Int) = c - 1 then 0x30 else 0x46))
      ∧ w[8]? = some 0x46 ∧ w[9]? = some 0x46 ∧ w[10]? = some 0x46 ∧ w[11]? = some (if on then 0x46 else 0x30)

/-- R206: with VARIANT = C the encoder reads PARAM_CH, PARAM_N0 and PARAM_N1; it gives NONE outside its ranges, and else the family's pattern, the four bits of the device and group index with
the least significant first, "0FF" and the status symbol. -/
def Obligations.VariantCEmitsIndexLsbFirst : Prop :=
  (∀ (table : List (List Byte)) (i : Instance) (on : Bool), i.variant = .c →
    encodeCodeword table i on = encodeC table i.paramCh i.paramN0.toInt i.paramN1.toInt on)
    ∧ ∀ (p : Params) (f : Byte) (g d : Int) (on : Bool), p.wf = true →
    (encodeC p.familyTable f g d on = none ↔ f.toNat < 0x61 ∨ 0x70 < f.toNat ∨ g < 1 ∨ 4 < g ∨ d < 1 ∨ 4 < d)
    ∧ ∀ w, encodeC p.familyTable f g d on = some w → w.length = 12
      ∧ p.familyTable[f.toNat - 0x61]? = some (w.take 4)
      ∧ (∀ j, j < 4 → w[j + 4]? = some (if ((d - 1) + (g - 1) * 4).toNat.testBit j then 0x46 else 0x30))
      ∧ w[8]? = some 0x30 ∧ w[9]? = some 0x46 ∧ w[10]? = some 0x46 ∧ w[11]? = some (if on then 0x46 else 0x30)

/-- R207: with VARIANT = D the encoder reads PARAM_CH and PARAM_N0; it gives NONE for another group or device, and else one '1' per code, '0' from position 7, and '1' at position 10
for on or 11 for off. -/
def Obligations.VariantDMarksGroupDeviceAndState : Prop :=
  (∀ (table : List (List Byte)) (i : Instance) (on : Bool), i.variant = .d →
    encodeCodeword table i on = encodeD i.paramCh i.paramN0.toInt on)
    ∧ ∀ (gc : Byte) (dv : Int) (on : Bool),
    (encodeD gc dv on = none ↔ ¬(0x41 ≤ gc.toNat ∧ gc.toNat ≤ 0x44 ∨ 0x61 ≤ gc.toNat ∧ gc.toNat ≤ 0x64) ∨ dv < 1 ∨ 3 < dv)
    ∧ ∀ w, encodeD gc dv on = some w → w.length = 12
      ∧ (∀ j, j < 4 → w[j]? = some (if gc.toNat = 0x41 + j ∨ gc.toNat = 0x61 + j then 0x31 else 0x46))
      ∧ (∀ j : Nat, j < 3 → w[j + 4]? = some (if dv = (j : Int) + 1 then 0x31 else 0x46))
      ∧ (∀ j, 7 ≤ j → j < 12 → w[j]? = some (if j = (if on then 10 else 11) then 0x31 else 0x30))

/-- R212, R213 (a), 10_state.md R50: every codeword of a legal instance has twelve symbols over '0', '1' and 'F'. -/
def Obligations.CodewordsAreTwelveTristateSymbols : Prop :=
  ∀ (p : Params) (i : Instance) (on : Bool) (w : List Byte), p.wf = true → i.paramA.length = 10 →
    encodeCodeword p.familyTable i on = some w → w.length = 12 ∧ ∀ c ∈ w, c = 0x30 ∨ c = 0x31 ∨ c = 0x46

/-- 40_codeword_encoder.md section 5, an inference the spec marks as its own (R213 (b), (c), (d)): variants A, B and C use only '0' and 'F'; on and off differ only in the status symbols; and they are NONE
together. -/
def Obligations.OnAndOffDifferOnlyInStatusSymbols : Prop :=
  ∀ (p : Params) (i : Instance), p.wf = true → i.paramA.length = 10 → i.variant ≠ .none →
    (encodeCodeword p.familyTable i true = none ↔ encodeCodeword p.familyTable i false = none)
    ∧ (i.variant ≠ .d → ∀ on w, encodeCodeword p.familyTable i on = some w → ∀ c ∈ w, c = 0x30 ∨ c = 0x46)
    ∧ ∀ w v, encodeCodeword p.familyTable i true = some w → encodeCodeword p.familyTable i false = some v →
      (∀ j, j < 10 → w[j]? = v[j]?) ∧ w[11]? ≠ v[11]?
        ∧ (i.variant = .b ∨ i.variant = .c → w[10]? = v[10]?) ∧ (i.variant = .a ∨ i.variant = .d → w[10]? ≠ v[10]?)

/-- R200: the encoder is a function of the variant and the stored parameters alone. -/
def Obligations.EncoderReadsOnlyStoredParameters : Prop :=
  ∀ (table : List (List Byte)) (i j : Instance) (on : Bool), i.variant = j.variant → i.paramA = j.paramA → i.paramCh = j.paramCh →
    i.paramN0 = j.paramN0 → i.paramN1 = j.paramN1 → encodeCodeword table i on = encodeCodeword table j on

/-- R208 to R211: with a variant bound, ENCODE_ON and ENCODE_OFF latch the codeword, or clear CW_VALID for NONE, and nothing else; with VARIANT =
NONE they record NO_VARIANT and do nothing else (60_exceptions.md R407). -/
def Obligations.EncodeCommandsLatchTheCodeword : Prop :=
  encode .encodeOn = 0x00000012 ∧ encode .encodeOff = 0x00000013 ∧ ∀ s : State,
    (s.inst.variant = .none → ∀ i ∈ [Instr.encodeOn, .encodeOff], exec i s = .next { s with inst := { s.inst with
      err := true, errCode := if s.inst.err then s.inst.errCode else .noVariant } })
    ∧ (s.inst.variant ≠ .none →
    (∀ w, encodeCodeword s.params.familyTable s.inst true = some w →
      exec .encodeOn s = .next { s with inst := { s.inst with cw := w, cwValid := true } })
    ∧ (∀ w, encodeCodeword s.params.familyTable s.inst false = some w →
      exec .encodeOff s = .next { s with inst := { s.inst with cw := w, cwValid := true } })
    ∧ (encodeCodeword s.params.familyTable s.inst true = none →
      exec .encodeOn s = .next { s with inst := { s.inst with cwValid := false } })
    ∧ (encodeCodeword s.params.familyTable s.inst false = none →
      exec .encodeOff s = .next { s with inst := { s.inst with cwValid := false } }))

/-! ### Switching -/

/-- 42_switch_handle.md R311 to R313: with a variant bound, a valid codeword is latched and its tri-state waveform queued; NONE transmits nothing; with
VARIANT = NONE they record NO_VARIANT and do nothing else (60_exceptions.md R407). -/
def Obligations.SwitchCommandsQueueTheWaveform : Prop :=
  encode .switchOn = 0x00000010 ∧ encode .switchOff = 0x00000011 ∧ ∀ s : State,
    (s.inst.variant = .none → ∀ i ∈ [Instr.switchOn, .switchOff], exec i s = .next { s with inst := { s.inst with
      err := true, errCode := if s.inst.err then s.inst.errCode else .noVariant } })
    ∧ (s.inst.variant ≠ .none →
    (∀ w, encodeCodeword s.params.familyTable s.inst true = some w →
      exec .switchOn s = .next { s with inst := { s.inst with
        cw := w, cwValid := true, queue := s.inst.queue ++ sendTri (snapshot s.inst) w } })
    ∧ (∀ w, encodeCodeword s.params.familyTable s.inst false = some w →
      exec .switchOff s = .next { s with inst := { s.inst with
        cw := w, cwValid := true, queue := s.inst.queue ++ sendTri (snapshot s.inst) w } })
    ∧ (encodeCodeword s.params.familyTable s.inst true = none →
      exec .switchOn s = .next { s with inst := { s.inst with cwValid := false } })
    ∧ (encodeCodeword s.params.familyTable s.inst false = none →
      exec .switchOff s = .next { s with inst := { s.inst with cwValid := false } }))

/-- 42_switch_handle.md section 4, an inference the spec marks as its own (R315): SWITCH_ON in two states whose instances agree on VARIANT, PARAM_*, PIN,
PULSE, REPEAT and PROTOCOL queues equal event lists and latches equal codewords (or leaves CW, with CW_VALID = 0, in both). And two SWITCH_ON
writes of one host, in the model's default order of turns (log 2, DESIGN CHOICE), present the same events twice over. -/
def Obligations.RepeatedSwitchOnRepeatsTheWaveform : Prop :=
  (∀ s s' : State, s.params.familyTable = s'.params.familyTable → s.inst.variant = s'.inst.variant → s.inst.paramA = s'.inst.paramA →
    s.inst.paramCh = s'.inst.paramCh → s.inst.paramN0 = s'.inst.paramN0 → s.inst.paramN1 = s'.inst.paramN1 → s.inst.pin = s'.inst.pin →
    s.inst.pulse = s'.inst.pulse → s.inst.repeatCount = s'.inst.repeatCount → s.inst.protocol = s'.inst.protocol →
    s.inst.variant ≠ .none →
    ∃ (t t' : State) (l : List Event), exec .switchOn s = .next t ∧ exec .switchOn s' = .next t'
      ∧ t.inst.queue = s.inst.queue ++ l ∧ t'.inst.queue = s'.inst.queue ++ l ∧ t.inst.cwValid = t'.inst.cwValid
      ∧ (t.inst.cwValid = true → t.inst.cw = t'.inst.cw)
      ∧ (t.inst.cwValid = false → t.inst.cw = s.inst.cw ∧ t'.inst.cw = s'.inst.cw))
    ∧ ∀ (s : State) (w : List Byte) (rest : List Access), s.turns = [] → s.inst.busy = false → s.inst.out.hung = false →
      s.inst.out.host = .write 0x000 0x00000010 :: .write 0x000 0x00000010 :: rest → s.inst.variant ≠ .none →
      encodeCodeword s.params.familyTable s.inst true = some w →
      stepN (2 * (1 + 2 * (sendTri (snapshot s.inst) w).length)) s = .next { s with inst := { s.inst with
        cw := w, cwValid := true
        out := { s.inst.out with
          host := rest, events := s.inst.out.events ++ (sendTri (snapshot s.inst) w ++ sendTri (snapshot s.inst) w) } } }

/-- 42_switch_handle.md R311, 10_state.md R48: with no turn listed, which means the model's default order of turns (log 2, DESIGN CHOICE), a SWITCH_ON of
an idle instance with a capability that acknowledges puts exactly the waveform of its
codeword on the event port, in order, and leaves the instance idle with the codeword latched. -/
def Obligations.SwitchOnTransmitsItsWaveform : Prop :=
  ∀ (s : State) (w : List Byte) (rest : List Access), s.turns = [] → s.inst.busy = false → s.inst.out.hung = false →
    s.inst.out.host = .write 0x000 0x00000010 :: rest → s.inst.variant ≠ .none →
    encodeCodeword s.params.familyTable s.inst true = some w →
    stepN (1 + 2 * (sendTri (snapshot s.inst) w).length) s = .next { s with inst := { s.inst with
      cw := w, cwValid := true
      out := { s.inst.out with host := rest, events := s.inst.out.events ++ sendTri (snapshot s.inst) w } } }

/-! ### The transmitter -/

/-- 41_pulse_transmitter.md R264: for every PULSE and every multiplier of the block the DELAY operand is the exact product. -/
def Obligations.DelayOperandsAreExactProducts : Prop :=
  ∀ (i : Instance) (m : Nat), m ∈ [1, 2, 3, 4, 6, 9, 10, 11, 31, 71] →
    ∃ d : Duration, delayUnits (snapshot i) m = .delay d ∧ d.toInt = i.pulse.toInt * m

/-- 41_pulse_transmitter.md R251: the four events of a pair on an enabled pin, the two of a pair on pin -1. -/
def Obligations.PulsePairEvents : Prop :=
  ∀ (c : Snapshot) (hi lo : Nat),
    (c.pin.toInt ≠ -1 → pulsePair c hi lo =
      [.write c.pin true, .delay (BitVec.ofInt 64 (c.unit * hi)), .write c.pin false, .delay (BitVec.ofInt 64 (c.unit * lo))])
    ∧ (c.pin.toInt = -1 → pulsePair c hi lo = [.delay (BitVec.ofInt 64 (c.unit * hi)), .delay (BitVec.ofInt 64 (c.unit * lo))])

/-- 41_pulse_transmitter.md section 2, an inference the spec marks as its own (R252): on pin -1 no send emits a WRITE, and every send has the same DELAY events on every pin. -/
def Obligations.DisabledPinKeepsDelaysOnly : Prop :=
  ∀ (c : Snapshot) (s : List Byte),
    (c.pin = 0xFFFFFFFF → (∀ e ∈ sendTri c s, e.isWrite = false) ∧ (∀ e ∈ sendBin c s, e.isWrite = false))
    ∧ delaysOf (sendTri c s) = sendTri { c with pin := 0xFFFFFFFF } s
    ∧ delaysOf (sendBin c s) = sendBin { c with pin := 0xFFFFFFFF } s

/-- 41_pulse_transmitter.md R253, R254, 60_exceptions.md R402: the three protocols' multipliers, and the pairs they give; any other number silences bit 0, bit 1 and sync,
so a two-state send emits nothing, and a tri-state send its data pairs alone. -/
def Obligations.UnsupportedProtocolIsSilent : Prop :=
  (protocolRow 1 = some ⟨(1, 3), (3, 1), (1, 31)⟩ ∧ protocolRow 2 = some ⟨(1, 2), (2, 1), (1, 10)⟩
    ∧ protocolRow 3 = some ⟨(4, 11), (9, 6), (1, 71)⟩)
    ∧ (∀ (c : Snapshot) (m : Multipliers), protocolRow c.protocol = some m →
      bit0Pulses c = pulsePair c m.bit0.1 m.bit0.2 ∧ bit1Pulses c = pulsePair c m.bit1.1 m.bit1.2
        ∧ syncPulses c = pulsePair c m.sync.1 m.sync.2)
    ∧ ∀ (c : Snapshot) (s : List Byte), c.protocol ≠ 1 → c.protocol ≠ 2 → c.protocol ≠ 3 →
      bit0Pulses c = [] ∧ bit1Pulses c = [] ∧ syncPulses c = [] ∧ sendBin c s = []
        ∧ sendTri c s = (List.replicate c.count.toNat (s.map (triPulses c)).flatten).flatten

/-- 41_pulse_transmitter.md R255 to R259: the pairs of each symbol, the frame repeated max(0, N) times with a sync after each, and the two
sends, the two-state one silent on the empty string. -/
def Obligations.SymbolPulsesAndFrames : Prop :=
  ∀ c : Snapshot,
    (triPulses c 0x30 = pulsePair c 1 3 ++ pulsePair c 1 3 ∧ triPulses c 0x31 = pulsePair c 3 1 ++ pulsePair c 3 1
      ∧ triPulses c 0x46 = pulsePair c 1 3 ++ pulsePair c 3 1
      ∧ ∀ b : Byte, b ≠ 0x30 → b ≠ 0x31 → b ≠ 0x46 → triPulses c b = [])
    ∧ (binPulses c 0x30 = bit0Pulses c ∧ binPulses c 0x31 = bit1Pulses c
      ∧ ∀ b : Byte, b ≠ 0x30 → b ≠ 0x31 → binPulses c b = [])
    ∧ (∀ body : List Event, (c.count ≤ 0 → repeatFrame c body = [])
      ∧ (0 < c.count → repeatFrame c body = body ++ syncPulses c ++ repeatFrame { c with count := c.count - 1 } body))
    ∧ (∀ s : List Byte, sendTri c s = repeatFrame c (s.map (triPulses c)).flatten
      ∧ sendBin c s = if s = [] then [] else repeatFrame c (s.map (binPulses c)).flatten)

/-- 41_pulse_transmitter.md R255, R256: bytes outside the alphabet are skipped, so leaving them out of a string that keeps a symbol changes nothing. -/
def Obligations.OtherBytesAreSkipped : Prop :=
  ∀ (c : Snapshot) (s : List Byte),
    sendTri c s = sendTri c (s.filter fun b => b == 0x30 || b == 0x31 || b == 0x46)
    ∧ (s.filter (fun b => b == 0x30 || b == 0x31) ≠ [] → sendBin c s = sendBin c (s.filter fun b => b == 0x30 || b == 0x31))

/-- 41_pulse_transmitter.md section 8, an inference the spec marks as its own (R266 (a)): the number of events of a tri-state send and of a non-empty two-state send. -/
def Obligations.SendEventCounts : Prop :=
  ∀ (c : Snapshot) (s : List Byte) (perPair sync : Nat),
    perPair = (if c.pin.toInt = -1 then 2 else 4) → sync = (if c.protocol = 1 ∨ c.protocol = 2 ∨ c.protocol = 3 then 1 else 0) →
    (sendTri c s).length = perPair * (c.count.toNat * (2 * (s.filter fun b => b == 0x30 || b == 0x31 || b == 0x46).length + sync))
    ∧ (s ≠ [] → (sendBin c s).length =
        perPair * (c.count.toNat * (sync * (s.filter fun b => b == 0x30 || b == 0x31).length + sync)))

/-- 70_reset_and_hazards.md section 4, an inference the spec marks as its own (R513): the DELAY operands of one switch command with a codeword sum to N · (12 · 8 + s) · u, and to N · 96 · u
with an unsupported protocol. -/
def Obligations.SwitchWaveformDuration : Prop :=
  ∀ (i : Instance) (w : List Byte), isCodeword w → 0 < i.repeatCount.toInt →
    (i.protocol.toInt = 1 → delaySum (sendTri (snapshot i) w) = i.repeatCount.toInt * (12 * 8 + 32) * i.pulse.toInt)
    ∧ (i.protocol.toInt = 2 → delaySum (sendTri (snapshot i) w) = i.repeatCount.toInt * (12 * 8 + 11) * i.pulse.toInt)
    ∧ (i.protocol.toInt = 3 → delaySum (sendTri (snapshot i) w) = i.repeatCount.toInt * (12 * 8 + 72) * i.pulse.toInt)
    ∧ (i.protocol.toInt < 1 ∨ 3 < i.protocol.toInt → delaySum (sendTri (snapshot i) w) = i.repeatCount.toInt * 96 * i.pulse.toInt)

/-- 41_pulse_transmitter.md R260: eight symbols per byte, bit 7 first, the bytes in order. -/
def Obligations.BytesBecomeBitsMsbFirst : Prop :=
  ∀ bytes : List Byte, (bytesToBits bytes).length = 8 * bytes.length
    ∧ ∀ (k j : Nat) (b : Byte), j < 8 → bytes[k]? = some b →
      (bytesToBits bytes)[8 * k + j]? = some (if b.toNat.testBit (7 - j) then 0x31 else 0x30)

/-- 41_pulse_transmitter.md R261, R262, 20_memory.md R92: where n bytes other than NUL and then a NUL stand at ARG0 inside the data buffer, the string
commands queue the waveform of those n bytes and change nothing else; where no NUL stands there, they record DBUF_RANGE and do
nothing else. -/
def Obligations.StringSendsQueueTheString : Prop :=
  encode .sendTristate = 0x00000020 ∧ encode .sendBinaryString = 0x00000021 ∧ ∀ s : State,
    (∀ n : Nat, s.inst.arg0.toNat + n < s.params.dbufSize →
      (∀ k, k < n → s.inst.dbufByte (s.inst.arg0.toNat + k) ≠ 0) → s.inst.dbufByte (s.inst.arg0.toNat + n) = 0 →
      exec .sendTristate s = .next { s with inst := { s.inst with
        queue := s.inst.queue
          ++ sendTri (snapshot s.inst) ((List.range n).map fun k => s.inst.dbufByte (s.inst.arg0.toNat + k)) } }
      ∧ exec .sendBinaryString s = .next { s with inst := { s.inst with
        queue := s.inst.queue
          ++ sendBin (snapshot s.inst) ((List.range n).map fun k => s.inst.dbufByte (s.inst.arg0.toNat + k)) } })
    ∧ ((∀ k, s.inst.arg0.toNat ≤ k → k < s.params.dbufSize → s.inst.dbufByte k ≠ 0) →
      exec .sendTristate s = .next { s with inst := { s.inst with
        err := true, errCode := if s.inst.err then s.inst.errCode else .dbufRange } }
      ∧ exec .sendBinaryString s = .next { s with inst := { s.inst with
        err := true, errCode := if s.inst.err then s.inst.errCode else .dbufRange } })

/-- 41_pulse_transmitter.md R263: SEND_BYTES queues the waveform of n bytes inside the data buffer; n ≤ 0 does nothing; bytes that pass the end of the
buffer record DBUF_RANGE and do nothing else. -/
def Obligations.SendBytesQueuesTheBytes : Prop :=
  encode .sendBytes = 0x00000022 ∧ ∀ s : State,
    (s.inst.arg1.toInt ≤ 0 → exec .sendBytes s = .next s)
    ∧ (0 < s.inst.arg1.toInt → (s.inst.arg0.toNat : Int) + s.inst.arg1.toInt ≤ s.params.dbufSize →
      exec .sendBytes s = .next { s with inst := { s.inst with
        queue := s.inst.queue
          ++ sendBin (snapshot s.inst)
            (bytesToBits ((List.range s.inst.arg1.toNat).map fun k => s.inst.dbufByte (s.inst.arg0.toNat + k))) } })
    ∧ (0 < s.inst.arg1.toInt → (s.params.dbufSize : Int) < s.inst.arg0.toNat + s.inst.arg1.toInt →
      exec .sendBytes s = .next { s with inst := { s.inst with
        err := true, errCode := if s.inst.err then s.inst.errCode else .dbufRange } })

/-! ### All commands -/

/-- 10_state.md R31, R35, R38, R46, R47: what no command changes, and which commands alone change VARIANT, the parameters, CW, the
transmitter configuration and ERR. -/
def Obligations.CommandsChangeOnlyTheirRegisters : Prop :=
  ∀ (i : Instr) (s t : State), exec i s = .next t →
    (t.params = s.params ∧ t.before = s.before ∧ t.after = s.after ∧ t.latch = s.latch ∧ t.turns = s.turns
      ∧ t.inst.arg0 = s.inst.arg0 ∧ t.inst.arg1 = s.inst.arg1 ∧ t.inst.arg2 = s.inst.arg2 ∧ t.inst.dbuf = s.inst.dbuf
      ∧ t.inst.await = s.inst.await ∧ t.inst.epoch = s.inst.epoch ∧ t.inst.out = s.inst.out
      ∧ (∀ k, t.inst.dbufByte k = s.inst.dbufByte k) ∧ ∃ l, t.inst.queue = s.inst.queue ++ l)
    ∧ (i ∉ [Instr.initA, .initB, .initC, .initD, .txInit] →
      t.inst.variant = s.inst.variant ∧ t.inst.paramA = s.inst.paramA ∧ t.inst.paramCh = s.inst.paramCh
        ∧ t.inst.paramN0 = s.inst.paramN0 ∧ t.inst.paramN1 = s.inst.paramN1
        ∧ (i ≠ .enableTransmit → t.inst.pin = s.inst.pin) ∧ (i ≠ .setPulseLength → t.inst.pulse = s.inst.pulse)
        ∧ (i ≠ .setRepeatTransmit → t.inst.repeatCount = s.inst.repeatCount)
        ∧ (i ≠ .setProtocol → t.inst.protocol = s.inst.protocol)
        ∧ (i ∉ [Instr.switchOn, .switchOff, .encodeOn, .encodeOff] → t.inst.cwValid = s.inst.cwValid))
    ∧ (i ∉ [Instr.switchOn, .switchOff, .encodeOn, .encodeOff] → t.inst.cw = s.inst.cw)
    ∧ (i ∉ [Instr.initA, .switchOn, .switchOff, .encodeOn, .encodeOff, .sendTristate, .sendBinaryString, .sendBytes] →
      t.inst.err = s.inst.err ∧ t.inst.errCode = s.inst.errCode)

/-- 60_exceptions.md R406, R407: a command that records an error where none was recorded has no other effect. -/
def Obligations.ErringCommandHasNoOtherEffect : Prop :=
  ∀ (i : Instr) (s t : State), exec i s = .next t → s.inst.err = false → t.inst.err = true →
    t = { s with inst := { s.inst with err := true, errCode := t.inst.errCode } }
      ∧ (t.inst.errCode = .dbufRange ∨ t.inst.errCode = .noVariant ∧ s.inst.variant = .none)

/-- 60_exceptions.md R411, 10_state.md R37: a recorded error and its code stay through every step of the instance but power-on reset. -/
def Obligations.RecordedErrorStaysUntilPowerOn : Prop :=
  ∀ s t : State, step s = .next t → nextTurn s ≠ .powerOn → (∀ k, nextTurn s ≠ .select k) → s.inst.err = true →
    t.inst.err = true ∧ t.inst.errCode = s.inst.errCode

/-! ### Assembler lines -/

/-- 30_encoding.md R131: a well-formed command line's accesses, made by the host of an idle instance in the model's default order of turns (log 2,
DESIGN CHOICE), write its operands to the argument registers it
names and then run the command; the other argument registers keep their words. -/
def Obligations.CommandLineWritesOperandsThenRuns : Prop :=
  ∀ (s : State) (i : Instr) (ops : List Operand) (rest : List Access), (AsmLine.command i ops).wf s.params.dbufSize = true →
    s.turns = [] → s.inst.busy = false → s.inst.out.host = expandLine s.inst (.command i ops) ++ rest →
    stepN (ops.length + 1) s = exec i { s with inst := { s.inst with
      arg0 := (ops.map operandWord).getD 0 s.inst.arg0
      arg1 := (ops.map operandWord).getD 1 s.inst.arg1
      arg2 := (ops.map operandWord).getD 2 s.inst.arg2
      out := { s.inst.out with host := rest } } }

/-- 30_encoding.md R132: a well-formed directive's accesses, made by the host of an idle instance in the model's default order of turns (log 2,
DESIGN CHOICE), put its bytes (and the NUL of `.dbuf`) into the
data buffer at its index, and leave every other byte of the buffer and every register as it was. -/
def Obligations.DirectiveLineStoresItsBytes : Prop :=
  ∀ (s : State) (line : AsmLine) (start : Nat) (bytes : List Byte) (rest : List Access), s.params.wf = true →
    line.wf s.params.dbufSize = true → line = .dbufb start bytes ∨ (∃ text, line = .dbuf start text ∧ bytes = text ++ [0x00]) →
    s.turns = [] → s.inst.busy = false → s.inst.out.host = expandLine s.inst line ++ rest →
    ∃ t, stepN (expandLine s.inst line).length s = .next t
      ∧ (∀ k, k < bytes.length → bytes[k]? = some (t.inst.dbufByte (start + k)))
      ∧ (∀ k, k < start ∨ start + bytes.length ≤ k → t.inst.dbufByte k = s.inst.dbufByte k)
      ∧ t = { s with inst := { s.inst with
        dbuf := t.inst.dbuf, out := { s.inst.out with host := rest, reads := t.inst.out.reads } } }

/-! ### Invariants -/

/-- State.reset is legal. -/
def Obligations.ResetStateIsLegal : Prop := State.reset.wf

/-- Every step keeps a state legal: parameters in range (00_scope.md R7), ERRCODE 0 exactly while ERR = 0 (10_state.md R33), CW a codeword
while CW_VALID = 1 (R35, R50), the data buffer canonical, no event naming pin -1 (20_memory.md R102), and LATCH set exactly where an INIT has
been presented since power-on (10_state.md R47). -/
def Obligations.StepKeepsStateLegal : Prop := ∀ s t : State, s.wf → step s = .next t → t.wf

/-- State.reset holds one instance that has brought nothing up: no INIT is pending or presented and LATCH = 0. So the invariant of
SingleInstanceBringsUpAtMostOnce holds there. One instance is the default of N_INSTANCES (log 8). -/
def Obligations.ResetHasNoBringUp : Prop :=
  State.reset.inst.initCount = 0 ∧ State.reset.latch = false ∧ State.reset.singleBringUp

/-- 60_exceptions.md section 5, an inference the spec marks as its own (in R417): with one instance at most one INIT is ever emitted per
power-on. -/
def Obligations.SingleInstanceBringsUpAtMostOnce : Prop :=
  ∀ s t : State, s.singleBringUp → step s = .next t → t.singleBringUp
end

