-- ==== Sys2Proof/Laws/State.lean ====
section
/-! SUPPORT. One lemma per field per update of the state, each true by rfl, so that no proof unfolds a record update. -/

namespace Sys2Proof.Machine

/-! ### The platform -/

@[simp] theorem withInst_params (s : State) (i : Instance) : (s.withInst i).params = s.params := rfl
@[simp] theorem withInst_before (s : State) (i : Instance) : (s.withInst i).before = s.before := rfl
@[simp] theorem withInst_inst (s : State) (i : Instance) : (s.withInst i).inst = i := rfl
@[simp] theorem withInst_after (s : State) (i : Instance) : (s.withInst i).after = s.after := rfl
@[simp] theorem withInst_latch (s : State) (i : Instance) : (s.withInst i).latch = s.latch := rfl
@[simp] theorem withInst_turns (s : State) (i : Instance) : (s.withInst i).turns = s.turns := rfl

@[simp] theorem turnUsed_params (s : State) : s.turnUsed.params = s.params := rfl
@[simp] theorem turnUsed_before (s : State) : s.turnUsed.before = s.before := rfl
@[simp] theorem turnUsed_inst (s : State) : s.turnUsed.inst = s.inst := rfl
@[simp] theorem turnUsed_after (s : State) : s.turnUsed.after = s.after := rfl
@[simp] theorem turnUsed_latch (s : State) : s.turnUsed.latch = s.latch := rfl
@[simp] theorem turnUsed_turns (s : State) : s.turnUsed.turns = s.turns.tail := rfl

@[simp] theorem hostMoved_params (s : State) (rest : List Access) : (s.hostMoved rest).params = s.params := rfl
@[simp] theorem hostMoved_before (s : State) (rest : List Access) : (s.hostMoved rest).before = s.before := rfl
@[simp] theorem hostMoved_after (s : State) (rest : List Access) : (s.hostMoved rest).after = s.after := rfl
@[simp] theorem hostMoved_latch (s : State) (rest : List Access) : (s.hostMoved rest).latch = s.latch := rfl
@[simp] theorem hostMoved_turns (s : State) (rest : List Access) : (s.hostMoved rest).turns = s.turns.tail := rfl
@[simp] theorem hostMoved_inst_arg0 (s : State) (rest : List Access) : (s.hostMoved rest).inst.arg0 = s.inst.arg0 := rfl
@[simp] theorem hostMoved_inst_arg1 (s : State) (rest : List Access) : (s.hostMoved rest).inst.arg1 = s.inst.arg1 := rfl
@[simp] theorem hostMoved_inst_arg2 (s : State) (rest : List Access) : (s.hostMoved rest).inst.arg2 = s.inst.arg2 := rfl
@[simp] theorem hostMoved_inst_cwValid (s : State) (rest : List Access) : (s.hostMoved rest).inst.cwValid = s.inst.cwValid := rfl
@[simp] theorem hostMoved_inst_err (s : State) (rest : List Access) : (s.hostMoved rest).inst.err = s.inst.err := rfl
@[simp] theorem hostMoved_inst_errCode (s : State) (rest : List Access) : (s.hostMoved rest).inst.errCode = s.inst.errCode := rfl
@[simp] theorem hostMoved_inst_variant (s : State) (rest : List Access) : (s.hostMoved rest).inst.variant = s.inst.variant := rfl
@[simp] theorem hostMoved_inst_pin (s : State) (rest : List Access) : (s.hostMoved rest).inst.pin = s.inst.pin := rfl
@[simp] theorem hostMoved_inst_pulse (s : State) (rest : List Access) : (s.hostMoved rest).inst.pulse = s.inst.pulse := rfl
@[simp] theorem hostMoved_inst_repeatCount (s : State) (rest : List Access) : (s.hostMoved rest).inst.repeatCount = s.inst.repeatCount := rfl
@[simp] theorem hostMoved_inst_protocol (s : State) (rest : List Access) : (s.hostMoved rest).inst.protocol = s.inst.protocol := rfl
@[simp] theorem hostMoved_inst_paramCh (s : State) (rest : List Access) : (s.hostMoved rest).inst.paramCh = s.inst.paramCh := rfl
@[simp] theorem hostMoved_inst_paramN0 (s : State) (rest : List Access) : (s.hostMoved rest).inst.paramN0 = s.inst.paramN0 := rfl
@[simp] theorem hostMoved_inst_paramN1 (s : State) (rest : List Access) : (s.hostMoved rest).inst.paramN1 = s.inst.paramN1 := rfl
@[simp] theorem hostMoved_inst_paramA (s : State) (rest : List Access) : (s.hostMoved rest).inst.paramA = s.inst.paramA := rfl
@[simp] theorem hostMoved_inst_cw (s : State) (rest : List Access) : (s.hostMoved rest).inst.cw = s.inst.cw := rfl
@[simp] theorem hostMoved_inst_dbuf (s : State) (rest : List Access) : (s.hostMoved rest).inst.dbuf = s.inst.dbuf := rfl
@[simp] theorem hostMoved_inst_queue (s : State) (rest : List Access) : (s.hostMoved rest).inst.queue = s.inst.queue := rfl
@[simp] theorem hostMoved_inst_await (s : State) (rest : List Access) : (s.hostMoved rest).inst.await = s.inst.await := rfl
@[simp] theorem hostMoved_inst_epoch (s : State) (rest : List Access) : (s.hostMoved rest).inst.epoch = s.inst.epoch := rfl
@[simp] theorem hostMoved_out_hung (s : State) (rest : List Access) : (s.hostMoved rest).inst.out.hung = s.inst.out.hung := rfl
@[simp] theorem hostMoved_out_events (s : State) (rest : List Access) : (s.hostMoved rest).inst.out.events = s.inst.out.events := rfl
@[simp] theorem hostMoved_out_reads (s : State) (rest : List Access) : (s.hostMoved rest).inst.out.reads = s.inst.out.reads := rfl
@[simp] theorem hostMoved_out_host (s : State) (rest : List Access) : (s.hostMoved rest).inst.out.host = rest := rfl
@[simp] theorem hostMoved_busy (s : State) (rest : List Access) : (s.hostMoved rest).inst.busy = s.inst.busy := rfl
@[simp] theorem hostMoved_dbufByte (s : State) (rest : List Access) (k : Nat) : (s.hostMoved rest).inst.dbufByte k = s.inst.dbufByte k := rfl

/-! ### raiseErr (60_exceptions.md R406) -/

@[simp] theorem raiseErr_arg0 (c : ErrCode) (i : Instance) : (raiseErr c i).arg0 = i.arg0 := rfl
@[simp] theorem raiseErr_arg1 (c : ErrCode) (i : Instance) : (raiseErr c i).arg1 = i.arg1 := rfl
@[simp] theorem raiseErr_arg2 (c : ErrCode) (i : Instance) : (raiseErr c i).arg2 = i.arg2 := rfl
@[simp] theorem raiseErr_cwValid (c : ErrCode) (i : Instance) : (raiseErr c i).cwValid = i.cwValid := rfl
@[simp] theorem raiseErr_err (c : ErrCode) (i : Instance) : (raiseErr c i).err = true := rfl
@[simp] theorem raiseErr_errCode (c : ErrCode) (i : Instance) : (raiseErr c i).errCode = if i.err then i.errCode else c := rfl
@[simp] theorem raiseErr_variant (c : ErrCode) (i : Instance) : (raiseErr c i).variant = i.variant := rfl
@[simp] theorem raiseErr_pin (c : ErrCode) (i : Instance) : (raiseErr c i).pin = i.pin := rfl
@[simp] theorem raiseErr_pulse (c : ErrCode) (i : Instance) : (raiseErr c i).pulse = i.pulse := rfl
@[simp] theorem raiseErr_repeatCount (c : ErrCode) (i : Instance) : (raiseErr c i).repeatCount = i.repeatCount := rfl
@[simp] theorem raiseErr_protocol (c : ErrCode) (i : Instance) : (raiseErr c i).protocol = i.protocol := rfl
@[simp] theorem raiseErr_paramCh (c : ErrCode) (i : Instance) : (raiseErr c i).paramCh = i.paramCh := rfl
@[simp] theorem raiseErr_paramN0 (c : ErrCode) (i : Instance) : (raiseErr c i).paramN0 = i.paramN0 := rfl
@[simp] theorem raiseErr_paramN1 (c : ErrCode) (i : Instance) : (raiseErr c i).paramN1 = i.paramN1 := rfl
@[simp] theorem raiseErr_paramA (c : ErrCode) (i : Instance) : (raiseErr c i).paramA = i.paramA := rfl
@[simp] theorem raiseErr_cw (c : ErrCode) (i : Instance) : (raiseErr c i).cw = i.cw := rfl
@[simp] theorem raiseErr_dbuf (c : ErrCode) (i : Instance) : (raiseErr c i).dbuf = i.dbuf := rfl
@[simp] theorem raiseErr_queue (c : ErrCode) (i : Instance) : (raiseErr c i).queue = i.queue := rfl
@[simp] theorem raiseErr_await (c : ErrCode) (i : Instance) : (raiseErr c i).await = i.await := rfl
@[simp] theorem raiseErr_epoch (c : ErrCode) (i : Instance) : (raiseErr c i).epoch = i.epoch := rfl
@[simp] theorem raiseErr_out (c : ErrCode) (i : Instance) : (raiseErr c i).out = i.out := rfl

/-! ### construct (42_switch_handle.md R300) -/

@[simp] theorem construct_arg0 (v : Variant) (i : Instance) : (construct v i).arg0 = i.arg0 := rfl
@[simp] theorem construct_arg1 (v : Variant) (i : Instance) : (construct v i).arg1 = i.arg1 := rfl
@[simp] theorem construct_arg2 (v : Variant) (i : Instance) : (construct v i).arg2 = i.arg2 := rfl
@[simp] theorem construct_cwValid (v : Variant) (i : Instance) : (construct v i).cwValid = false := rfl
@[simp] theorem construct_err (v : Variant) (i : Instance) : (construct v i).err = i.err := rfl
@[simp] theorem construct_errCode (v : Variant) (i : Instance) : (construct v i).errCode = i.errCode := rfl
@[simp] theorem construct_variant (v : Variant) (i : Instance) : (construct v i).variant = v := rfl
@[simp] theorem construct_pin (v : Variant) (i : Instance) : (construct v i).pin = -1 := rfl
@[simp] theorem construct_pulse (v : Variant) (i : Instance) : (construct v i).pulse = 350 := rfl
@[simp] theorem construct_repeatCount (v : Variant) (i : Instance) : (construct v i).repeatCount = 10 := rfl
@[simp] theorem construct_protocol (v : Variant) (i : Instance) : (construct v i).protocol = 1 := rfl
@[simp] theorem construct_paramCh (v : Variant) (i : Instance) : (construct v i).paramCh = 0 := rfl
@[simp] theorem construct_paramN0 (v : Variant) (i : Instance) : (construct v i).paramN0 = 0 := rfl
@[simp] theorem construct_paramN1 (v : Variant) (i : Instance) : (construct v i).paramN1 = 0 := rfl
@[simp] theorem construct_paramA (v : Variant) (i : Instance) : (construct v i).paramA = List.replicate 10 0 := rfl
@[simp] theorem construct_cw (v : Variant) (i : Instance) : (construct v i).cw = i.cw := rfl
@[simp] theorem construct_dbuf (v : Variant) (i : Instance) : (construct v i).dbuf = i.dbuf := rfl
@[simp] theorem construct_queue (v : Variant) (i : Instance) : (construct v i).queue = i.queue := rfl
@[simp] theorem construct_await (v : Variant) (i : Instance) : (construct v i).await = i.await := rfl
@[simp] theorem construct_epoch (v : Variant) (i : Instance) : (construct v i).epoch = i.epoch := rfl
@[simp] theorem construct_out (v : Variant) (i : Instance) : (construct v i).out = i.out := rfl

/-! ### emit (00_scope.md R14) -/

@[simp] theorem emit_arg0 (l : List Event) (i : Instance) : (emit l i).arg0 = i.arg0 := rfl
@[simp] theorem emit_arg1 (l : List Event) (i : Instance) : (emit l i).arg1 = i.arg1 := rfl
@[simp] theorem emit_arg2 (l : List Event) (i : Instance) : (emit l i).arg2 = i.arg2 := rfl
@[simp] theorem emit_cwValid (l : List Event) (i : Instance) : (emit l i).cwValid = i.cwValid := rfl
@[simp] theorem emit_err (l : List Event) (i : Instance) : (emit l i).err = i.err := rfl
@[simp] theorem emit_errCode (l : List Event) (i : Instance) : (emit l i).errCode = i.errCode := rfl
@[simp] theorem emit_variant (l : List Event) (i : Instance) : (emit l i).variant = i.variant := rfl
@[simp] theorem emit_pin (l : List Event) (i : Instance) : (emit l i).pin = i.pin := rfl
@[simp] theorem emit_pulse (l : List Event) (i : Instance) : (emit l i).pulse = i.pulse := rfl
@[simp] theorem emit_repeatCount (l : List Event) (i : Instance) : (emit l i).repeatCount = i.repeatCount := rfl
@[simp] theorem emit_protocol (l : List Event) (i : Instance) : (emit l i).protocol = i.protocol := rfl
@[simp] theorem emit_paramCh (l : List Event) (i : Instance) : (emit l i).paramCh = i.paramCh := rfl
@[simp] theorem emit_paramN0 (l : List Event) (i : Instance) : (emit l i).paramN0 = i.paramN0 := rfl
@[simp] theorem emit_paramN1 (l : List Event) (i : Instance) : (emit l i).paramN1 = i.paramN1 := rfl
@[simp] theorem emit_paramA (l : List Event) (i : Instance) : (emit l i).paramA = i.paramA := rfl
@[simp] theorem emit_cw (l : List Event) (i : Instance) : (emit l i).cw = i.cw := rfl
@[simp] theorem emit_dbuf (l : List Event) (i : Instance) : (emit l i).dbuf = i.dbuf := rfl
@[simp] theorem emit_queue (l : List Event) (i : Instance) : (emit l i).queue = i.queue ++ l := rfl
@[simp] theorem emit_await (l : List Event) (i : Instance) : (emit l i).await = i.await := rfl
@[simp] theorem emit_epoch (l : List Event) (i : Instance) : (emit l i).epoch = i.epoch := rfl
@[simp] theorem emit_out (l : List Event) (i : Instance) : (emit l i).out = i.out := rfl

/-! ### latchCw (40_codeword_encoder.md R209) -/

@[simp] theorem latchCw_none_arg0 (i : Instance) : (latchCw none i).arg0 = i.arg0 := rfl
@[simp] theorem latchCw_none_arg1 (i : Instance) : (latchCw none i).arg1 = i.arg1 := rfl
@[simp] theorem latchCw_none_arg2 (i : Instance) : (latchCw none i).arg2 = i.arg2 := rfl
@[simp] theorem latchCw_none_cwValid (i : Instance) : (latchCw none i).cwValid = false := rfl
@[simp] theorem latchCw_none_err (i : Instance) : (latchCw none i).err = i.err := rfl
@[simp] theorem latchCw_none_errCode (i : Instance) : (latchCw none i).errCode = i.errCode := rfl
@[simp] theorem latchCw_none_variant (i : Instance) : (latchCw none i).variant = i.variant := rfl
@[simp] theorem latchCw_none_pin (i : Instance) : (latchCw none i).pin = i.pin := rfl
@[simp] theorem latchCw_none_pulse (i : Instance) : (latchCw none i).pulse = i.pulse := rfl
@[simp] theorem latchCw_none_repeatCount (i : Instance) : (latchCw none i).repeatCount = i.repeatCount := rfl
@[simp] theorem latchCw_none_protocol (i : Instance) : (latchCw none i).protocol = i.protocol := rfl
@[simp] theorem latchCw_none_paramCh (i : Instance) : (latchCw none i).paramCh = i.paramCh := rfl
@[simp] theorem latchCw_none_paramN0 (i : Instance) : (latchCw none i).paramN0 = i.paramN0 := rfl
@[simp] theorem latchCw_none_paramN1 (i : Instance) : (latchCw none i).paramN1 = i.paramN1 := rfl
@[simp] theorem latchCw_none_paramA (i : Instance) : (latchCw none i).paramA = i.paramA := rfl
@[simp] theorem latchCw_none_cw (i : Instance) : (latchCw none i).cw = i.cw := rfl
@[simp] theorem latchCw_none_dbuf (i : Instance) : (latchCw none i).dbuf = i.dbuf := rfl
@[simp] theorem latchCw_none_queue (i : Instance) : (latchCw none i).queue = i.queue := rfl
@[simp] theorem latchCw_none_await (i : Instance) : (latchCw none i).await = i.await := rfl
@[simp] theorem latchCw_none_epoch (i : Instance) : (latchCw none i).epoch = i.epoch := rfl
@[simp] theorem latchCw_none_out (i : Instance) : (latchCw none i).out = i.out := rfl
@[simp] theorem latchCw_some_arg0 (w : List Byte) (i : Instance) : (latchCw (some w) i).arg0 = i.arg0 := rfl
@[simp] theorem latchCw_some_arg1 (w : List Byte) (i : Instance) : (latchCw (some w) i).arg1 = i.arg1 := rfl
@[simp] theorem latchCw_some_arg2 (w : List Byte) (i : Instance) : (latchCw (some w) i).arg2 = i.arg2 := rfl
@[simp] theorem latchCw_some_cwValid (w : List Byte) (i : Instance) : (latchCw (some w) i).cwValid = true := rfl
@[simp] theorem latchCw_some_err (w : List Byte) (i : Instance) : (latchCw (some w) i).err = i.err := rfl
@[simp] theorem latchCw_some_errCode (w : List Byte) (i : Instance) : (latchCw (some w) i).errCode = i.errCode := rfl
@[simp] theorem latchCw_some_variant (w : List Byte) (i : Instance) : (latchCw (some w) i).variant = i.variant := rfl
@[simp] theorem latchCw_some_pin (w : List Byte) (i : Instance) : (latchCw (some w) i).pin = i.pin := rfl
@[simp] theorem latchCw_some_pulse (w : List Byte) (i : Instance) : (latchCw (some w) i).pulse = i.pulse := rfl
@[simp] theorem latchCw_some_repeatCount (w : List Byte) (i : Instance) : (latchCw (some w) i).repeatCount = i.repeatCount := rfl
@[simp] theorem latchCw_some_protocol (w : List Byte) (i : Instance) : (latchCw (some w) i).protocol = i.protocol := rfl
@[simp] theorem latchCw_some_paramCh (w : List Byte) (i : Instance) : (latchCw (some w) i).paramCh = i.paramCh := rfl
@[simp] theorem latchCw_some_paramN0 (w : List Byte) (i : Instance) : (latchCw (some w) i).paramN0 = i.paramN0 := rfl
@[simp] theorem latchCw_some_paramN1 (w : List Byte) (i : Instance) : (latchCw (some w) i).paramN1 = i.paramN1 := rfl
@[simp] theorem latchCw_some_paramA (w : List Byte) (i : Instance) : (latchCw (some w) i).paramA = i.paramA := rfl
@[simp] theorem latchCw_some_cw (w : List Byte) (i : Instance) : (latchCw (some w) i).cw = w := rfl
@[simp] theorem latchCw_some_dbuf (w : List Byte) (i : Instance) : (latchCw (some w) i).dbuf = i.dbuf := rfl
@[simp] theorem latchCw_some_queue (w : List Byte) (i : Instance) : (latchCw (some w) i).queue = i.queue := rfl
@[simp] theorem latchCw_some_await (w : List Byte) (i : Instance) : (latchCw (some w) i).await = i.await := rfl
@[simp] theorem latchCw_some_epoch (w : List Byte) (i : Instance) : (latchCw (some w) i).epoch = i.epoch := rfl
@[simp] theorem latchCw_some_out (w : List Byte) (i : Instance) : (latchCw (some w) i).out = i.out := rfl

/-! ### Power-on (10_state.md R49; 70_reset_and_hazards.md R500) -/

@[simp] theorem powerOnInstance_arg0 (n : Nat) (i : Instance) : (powerOnInstance n i).arg0 = 0 := rfl
@[simp] theorem powerOnInstance_arg1 (n : Nat) (i : Instance) : (powerOnInstance n i).arg1 = 0 := rfl
@[simp] theorem powerOnInstance_arg2 (n : Nat) (i : Instance) : (powerOnInstance n i).arg2 = 0 := rfl
@[simp] theorem powerOnInstance_cwValid (n : Nat) (i : Instance) : (powerOnInstance n i).cwValid = false := rfl
@[simp] theorem powerOnInstance_err (n : Nat) (i : Instance) : (powerOnInstance n i).err = false := rfl
@[simp] theorem powerOnInstance_errCode (n : Nat) (i : Instance) : (powerOnInstance n i).errCode = .noError := rfl
@[simp] theorem powerOnInstance_variant (n : Nat) (i : Instance) : (powerOnInstance n i).variant = .none := rfl
@[simp] theorem powerOnInstance_pin (n : Nat) (i : Instance) : (powerOnInstance n i).pin = -1 := rfl
@[simp] theorem powerOnInstance_pulse (n : Nat) (i : Instance) : (powerOnInstance n i).pulse = 350 := rfl
@[simp] theorem powerOnInstance_repeatCount (n : Nat) (i : Instance) : (powerOnInstance n i).repeatCount = 10 := rfl
@[simp] theorem powerOnInstance_protocol (n : Nat) (i : Instance) : (powerOnInstance n i).protocol = 1 := rfl
@[simp] theorem powerOnInstance_paramCh (n : Nat) (i : Instance) : (powerOnInstance n i).paramCh = 0 := rfl
@[simp] theorem powerOnInstance_paramN0 (n : Nat) (i : Instance) : (powerOnInstance n i).paramN0 = 0 := rfl
@[simp] theorem powerOnInstance_paramN1 (n : Nat) (i : Instance) : (powerOnInstance n i).paramN1 = 0 := rfl
@[simp] theorem powerOnInstance_paramA (n : Nat) (i : Instance) : (powerOnInstance n i).paramA = List.replicate 10 0 := rfl
@[simp] theorem powerOnInstance_cw (n : Nat) (i : Instance) : (powerOnInstance n i).cw = List.replicate 12 0 := rfl
@[simp] theorem powerOnInstance_dbuf (n : Nat) (i : Instance) : (powerOnInstance n i).dbuf = [] := rfl
@[simp] theorem powerOnInstance_queue (n : Nat) (i : Instance) : (powerOnInstance n i).queue = [] := rfl
@[simp] theorem powerOnInstance_await (n : Nat) (i : Instance) : (powerOnInstance n i).await = false := rfl
@[simp] theorem powerOnInstance_epoch (n : Nat) (i : Instance) : (powerOnInstance n i).epoch = i.epoch + n := rfl
@[simp] theorem powerOnInstance_events (n : Nat) (i : Instance) : (powerOnInstance n i).out.events = [] := rfl
@[simp] theorem powerOnInstance_host (n : Nat) (i : Instance) : (powerOnInstance n i).out.host = i.out.host := rfl

end Sys2Proof.Machine
end

