-- ==== Sys2Proof/Laws/Ops.lean ====
section
/-! SUPPORT. What the shared operations do, said once: the data buffer, the operands, the platform's selection. -/

namespace Sys2Proof.Machine

/-! ### The data buffer -/

theorem readCell_writeCell_same (m : Memory) (k : Nat) (b : Byte) : readCell (writeCell m k b) k = some b := by
  induction m with
  | nil => simp [writeCell, readCell]
  | cons x m ih =>
    obtain ⟨a, c⟩ := x
    simp only [writeCell]
    split
    · simp [readCell]
    · split
      · simp [readCell]
      · next h => simp [readCell, ih, Ne.symm h]

theorem readCell_writeCell_other (m : Memory) {k j : Nat} (b : Byte) (h : j ≠ k) :
    readCell (writeCell m k b) j = readCell m j := by
  induction m with
  | nil => simp [writeCell, readCell, Ne.symm h]
  | cons x m ih =>
    obtain ⟨a, c⟩ := x
    simp only [writeCell]
    split
    · simp [readCell, Ne.symm h]
    · split
      · next h' => subst h'; simp [readCell, Ne.symm h]
      · simp [readCell, ih]

/-- Every index of a written buffer is the one written or was there before. -/
theorem mem_writeCell {m : Memory} {k : Nat} {b : Byte} {x : Host.Cell} (h : x ∈ writeCell m k b) :
    x.1 = k ∨ x ∈ m := by
  induction m with
  | nil => simp only [writeCell, List.mem_singleton] at h; exact .inl (by rw [h])
  | cons y m ih =>
    obtain ⟨a, c⟩ := y
    simp only [writeCell] at h
    split at h
    · rcases List.mem_cons.1 h with rfl | h
      · exact .inl rfl
      · exact .inr h
    · split at h
      · rcases List.mem_cons.1 h with rfl | h
        · exact .inl rfl
        · exact .inr (List.mem_cons_of_mem _ h)
      · rcases List.mem_cons.1 h with rfl | h
        · exact .inr List.mem_cons_self
        · rcases ih h with h | h
          · exact .inl h
          · exact .inr (List.mem_cons_of_mem _ h)

/-- A write keeps the canonical form. -/
theorem writeCell_wf {size : Nat} {m : Memory} {k : Nat} {b : Byte} (hm : Memory.wf size m) (hk : k < size) :
    Memory.wf size (writeCell m k b) := by
  refine ⟨?_, fun x hx => ?_⟩
  · have hp := hm.1
    clear hm
    induction m with
    | nil => simp [writeCell]
    | cons y m ih =>
      obtain ⟨a, c⟩ := y
      rw [List.pairwise_cons] at hp
      simp only [writeCell]
      split
      · next h =>
        refine List.pairwise_cons.2 ⟨fun z hz => ?_, List.pairwise_cons.2 hp⟩
        rcases List.mem_cons.1 hz with rfl | hz
        · exact h
        · exact lt_trans h (hp.1 z hz)
      · split
        · next h => subst h; exact List.pairwise_cons.2 hp
        · next h1 h2 =>
          refine List.pairwise_cons.2 ⟨fun z hz => ?_, ih hp.2⟩
          rcases mem_writeCell hz with h | h
          · show a < z.1; omega
          · exact hp.1 z h
  · rcases mem_writeCell hx with h | h
    · omega
    · exact hm.2 x h

/-- The write of a word keeps the canonical form. -/
theorem writeDbufWord_wf {size : Nat} {m : Memory} {k : Nat} {w : Word} (hm : Memory.wf size m) (hk : k + 3 < size) :
    Memory.wf size (writeDbufWord m k w) :=
  writeCell_wf (writeCell_wf (writeCell_wf (writeCell_wf hm (by omega)) (by omega)) (by omega)) hk

theorem reset_dbuf_wf (size epoch : Nat) : Memory.wf size (Instance.reset epoch).dbuf := by
  simp [Memory.wf, Instance.reset]

/-- A word's write puts lane j at index k+j and leaves every other index. -/
theorem readCell_writeDbufWord (m : Memory) (k : Nat) (w : Word) (n : Nat) :
    readCell (writeDbufWord m k w) n =
      if k ≤ n ∧ n < k + 4 then some (laneOf w (n - k)) else readCell m n := by
  unfold writeDbufWord
  by_cases h3 : n = k + 3
  · subst h3; rw [readCell_writeCell_same]; simp
  rw [readCell_writeCell_other _ _ h3]
  by_cases h2 : n = k + 2
  · subst h2; rw [readCell_writeCell_same]; simp
  rw [readCell_writeCell_other _ _ h2]
  by_cases h1 : n = k + 1
  · subst h1; rw [readCell_writeCell_same]; simp
  rw [readCell_writeCell_other _ _ h1]
  by_cases h0 : n = k
  · subst h0; rw [readCell_writeCell_same]; simp
  rw [readCell_writeCell_other _ _ h0, if_neg (by omega)]

/-- The lanes of a packed word are its bytes (20_memory.md R85). -/
theorem laneOf_packWord (b0 b1 b2 b3 : Byte) :
    laneOf (packWord b0 b1 b2 b3) 0 = b0 ∧ laneOf (packWord b0 b1 b2 b3) 1 = b1
      ∧ laneOf (packWord b0 b1 b2 b3) 2 = b2 ∧ laneOf (packWord b0 b1 b2 b3) 3 = b3 := by
  refine ⟨?_, ?_, ?_, ?_⟩ <;>
  · apply BitVec.eq_of_getLsbD_eq
    intro j hj
    simp only [laneOf, packWord, BitVec.getLsbD_extractLsb', BitVec.getLsbD_append, hj, decide_true, Bool.true_and]
    repeat rw [if_neg (by omega)]
    try rw [if_pos (by omega)]
    congr 1
    omega

/-! ### Operands -/

/-- `MemRead` succeeds exactly inside the data buffer (20_memory.md R91). -/
theorem memRead_eq_some {size : Nat} {i : Instance} {start n : Nat} {l : List Byte} :
    memRead size i start n = some l ↔ start + n ≤ size ∧ l = (List.range n).map fun k => i.dbufByte (start + k) := by
  unfold memRead
  split <;> simp_all [eq_comm]

theorem memRead_eq_none {size : Nat} {i : Instance} {start n : Nat} :
    memRead size i start n = none ↔ size < start + n := by
  unfold memRead
  split <;> simp_all

/-- A scan that meets NUL first after n other bytes gives those n bytes. -/
theorem scanToNul_of_nul (i : Instance) (n : Nat) : ∀ (start fuel : Nat), n < fuel →
    (∀ k, k < n → i.dbufByte (start + k) ≠ 0) → i.dbufByte (start + n) = 0 →
    scanToNul i start fuel = some ((List.range n).map fun k => i.dbufByte (start + k)) := by
  induction n with
  | zero =>
    intro start fuel hf _ h0
    obtain ⟨f, rfl⟩ : ∃ f, fuel = f + 1 := ⟨fuel - 1, by omega⟩
    have : i.dbufByte start = chNul := h0
    simp [scanToNul, this]
  | succ n ih =>
    intro start fuel hf hk h0
    obtain ⟨f, rfl⟩ : ∃ f, fuel = f + 1 := ⟨fuel - 1, by omega⟩
    have h1 : i.dbufByte start ≠ chNul := hk 0 (by omega)
    rw [scanToNul, if_neg h1, ih (start + 1) f (by omega)
      (fun k hk' => by have := hk (k + 1) (by omega); rwa [show start + (k + 1) = start + 1 + k by omega] at this)
      (by rw [show start + 1 + n = start + (n + 1) by omega]; exact h0)]
    rw [List.range_succ_eq_map]
    simp [Function.comp_def, Nat.add_assoc, Nat.add_comm 1]

/-- A scan over bytes none of which is NUL finds nothing. -/
theorem scanToNul_eq_none (i : Instance) : ∀ (fuel start : Nat),
    (∀ k, k < fuel → i.dbufByte (start + k) ≠ 0) → scanToNul i start fuel = none := by
  intro fuel
  induction fuel with
  | zero => intro start _; rfl
  | succ f ih =>
    intro start h
    have h1 : i.dbufByte start ≠ chNul := h 0 (by omega)
    rw [scanToNul, if_neg h1, ih (start + 1)
      (fun k hk => by have := h (k + 1) (by omega); rwa [show start + (k + 1) = start + 1 + k by omega] at this)]
    rfl

/-! ### The platform -/

/-- A selection changes no instance, only which one moves. -/
theorem selectInstance_instances (k : Nat) (s : State) : (selectInstance k s).instances = s.instances := by
  unfold selectInstance
  split
  · next i h =>
    have hk : k < s.instances.length := by
      by_contra hc
      rw [List.getElem?_eq_none (by omega)] at h
      cases h
    have hi : s.instances[k] = i := by simpa [List.getElem?_eq_getElem hk] using h
    show List.take k s.instances ++ i :: List.drop (k + 1) s.instances = s.instances
    rw [← hi, ← List.drop_eq_getElem_cons hk, List.take_append_drop]
  · rfl

theorem selectInstance_frame (k : Nat) (s : State) :
    (selectInstance k s).params = s.params ∧ (selectInstance k s).latch = s.latch ∧ (selectInstance k s).turns = s.turns := by
  unfold selectInstance
  split <;> simp

/-- The instance that moves stands at the index of its place. -/
theorem instances_inst (s : State) : s.instances[s.before.length]? = some s.inst := by simp [State.instances]

/-- Replacing the instance that moves replaces no other. -/
theorem instances_withInst_other {s : State} {k : Nat} (i : Instance) (h : k ≠ s.before.length) :
    (s.withInst i).instances[k]? = s.instances[k]? := by
  show (s.before ++ i :: s.after)[k]? = (s.before ++ s.inst :: s.after)[k]?
  rcases Nat.lt_or_gt_of_ne h with hk | hk
  · rw [List.getElem?_append_left hk, List.getElem?_append_left hk]
  · rw [List.getElem?_append_right hk.le, List.getElem?_append_right hk.le, ← Nat.succ_pred_eq_of_pos (Nat.sub_pos_of_lt hk),
      List.getElem?_cons_succ, List.getElem?_cons_succ]

/-- Selecting an instance that exists makes it the one that moves, at its own index. -/
theorem selectInstance_of_some {s : State} {k : Nat} {i : Instance} (h : s.instances[k]? = some i) :
    (selectInstance k s).inst = i ∧ (selectInstance k s).before.length = k := by
  have hk : k < s.instances.length := (List.getElem?_eq_some_iff.mp h).1
  simp only [selectInstance, h, List.length_take]
  exact ⟨trivial, min_eq_left hk.le⟩

theorem powerOnReset_instances (s : State) :
    (powerOnReset s).instances = s.instances.map (powerOnInstance s.instances.length) := by
  simp [powerOnReset, State.instances]

end Sys2Proof.Machine
end

