-- ==== Sys2Proof/Laws/PerInstr.lean ====
section
/-! SUPPORT. The families of statements made per instruction (LAWS.json). -/

namespace Sys2Proof.Laws

/-- A command is well formed, its word has RSV = 0 (30_encoding.md R121), and its opcode names it (R124). -/
def CommandWord.Statement (i : Instr) : Prop :=
  i.wf = true ∧ (encode i).extractLsb' 8 24 = 0 ∧ decodeOp ((encode i).extractLsb' 0 8) = some i

theorem CommandWord.initA : CommandWord.Statement .initA := ⟨rfl, rfl, rfl⟩
theorem CommandWord.initB : CommandWord.Statement .initB := ⟨rfl, rfl, rfl⟩
theorem CommandWord.initC : CommandWord.Statement .initC := ⟨rfl, rfl, rfl⟩
theorem CommandWord.initD : CommandWord.Statement .initD := ⟨rfl, rfl, rfl⟩
theorem CommandWord.txInit : CommandWord.Statement .txInit := ⟨rfl, rfl, rfl⟩
theorem CommandWord.enableTransmit : CommandWord.Statement .enableTransmit := ⟨rfl, rfl, rfl⟩
theorem CommandWord.setPulseLength : CommandWord.Statement .setPulseLength := ⟨rfl, rfl, rfl⟩
theorem CommandWord.setRepeatTransmit : CommandWord.Statement .setRepeatTransmit := ⟨rfl, rfl, rfl⟩
theorem CommandWord.setProtocol : CommandWord.Statement .setProtocol := ⟨rfl, rfl, rfl⟩
theorem CommandWord.switchOn : CommandWord.Statement .switchOn := ⟨rfl, rfl, rfl⟩
theorem CommandWord.switchOff : CommandWord.Statement .switchOff := ⟨rfl, rfl, rfl⟩
theorem CommandWord.encodeOn : CommandWord.Statement .encodeOn := ⟨rfl, rfl, rfl⟩
theorem CommandWord.encodeOff : CommandWord.Statement .encodeOff := ⟨rfl, rfl, rfl⟩
theorem CommandWord.sendTristate : CommandWord.Statement .sendTristate := ⟨rfl, rfl, rfl⟩
theorem CommandWord.sendBinaryString : CommandWord.Statement .sendBinaryString := ⟨rfl, rfl, rfl⟩
theorem CommandWord.sendBytes : CommandWord.Statement .sendBytes := ⟨rfl, rfl, rfl⟩

end Sys2Proof.Laws
end

