-- ==== Sys2Proof/Laws/Transmitter.lean ====
section
/-! SUPPORT. What the events of a waveform are made of: a property of every pulse pair holds of every send. -/

namespace Sys2Proof.Machine

/-- A pulse pair on an enabled pin is four events, on pin -1 two (41_pulse_transmitter.md R251). -/
theorem pulsePair_length (c : Snapshot) (hi lo : Nat) : (pulsePair c hi lo).length = if s32 c.pin = -1 then 2 else 4 := by
  unfold pulsePair
  by_cases h : s32 c.pin = -1 <;> simp [h]

/-- A pulse pair holds WRITEs of its own, enabled pin and DELAYs. -/
theorem mem_pulsePair {c : Snapshot} {hi lo : Nat} {e : Event} (h : e ∈ pulsePair c hi lo) :
    (∃ b, e = .write c.pin b ∧ s32 c.pin ≠ -1) ∨ ∃ m, e = delayUnits c m := by
  unfold pulsePair at h
  split at h
  · next hp =>
    simp only [List.mem_cons, List.not_mem_nil, or_false] at h
    rcases h with rfl | rfl | rfl | rfl
    · exact .inl ⟨true, rfl, hp⟩
    · exact .inr ⟨hi, rfl⟩
    · exact .inl ⟨false, rfl, hp⟩
    · exact .inr ⟨lo, rfl⟩
  · simp only [List.mem_cons, List.not_mem_nil, or_false] at h
    rcases h with rfl | rfl
    · exact .inr ⟨hi, rfl⟩
    · exact .inr ⟨lo, rfl⟩

theorem mem_syncPulses {P : Event → Prop} {c : Snapshot} (hp : ∀ hi lo, ∀ e ∈ pulsePair c hi lo, P e) :
    ∀ e ∈ syncPulses c, P e := by
  unfold syncPulses
  split
  · exact hp _ _
  · simp

theorem mem_triPulses {P : Event → Prop} {c : Snapshot} (hp : ∀ hi lo, ∀ e ∈ pulsePair c hi lo, P e) (b : Byte) :
    ∀ e ∈ triPulses c b, P e := by
  intro e he
  unfold triPulses at he
  split at he
  · exact (List.mem_append.1 he).elim (hp _ _ _) (hp _ _ _)
  split at he
  · exact (List.mem_append.1 he).elim (hp _ _ _) (hp _ _ _)
  split at he
  · exact (List.mem_append.1 he).elim (hp _ _ _) (hp _ _ _)
  · simp at he

theorem mem_binPulses {P : Event → Prop} {c : Snapshot} (hp : ∀ hi lo, ∀ e ∈ pulsePair c hi lo, P e) (b : Byte) :
    ∀ e ∈ binPulses c b, P e := by
  intro e he
  unfold binPulses bit0Pulses bit1Pulses at he
  repeat' split at he
  all_goals first | exact hp _ _ _ he | simp at he

/-- A property of the body's events and the sync's holds of the repeated frame (R257). -/
theorem mem_repeatFrame {P : Event → Prop} {c : Snapshot} {body : List Event} (hb : ∀ e ∈ body, P e)
    (hs : ∀ e ∈ syncPulses c, P e) : ∀ e ∈ repeatFrame c body, P e := by
  intro e he
  obtain ⟨l, hl, he⟩ := List.mem_flatten.1 he
  rw [List.eq_of_mem_replicate hl] at he
  exact (List.mem_append.1 he).elim (hb e) (hs e)

/-- A property of every pulse pair holds of every tri-state send (R258). -/
theorem mem_sendTri {P : Event → Prop} {c : Snapshot} (hp : ∀ hi lo, ∀ e ∈ pulsePair c hi lo, P e) (s : List Byte) :
    ∀ e ∈ sendTri c s, P e := by
  refine mem_repeatFrame (fun e he => ?_) (mem_syncPulses hp)
  obtain ⟨l, hl, he⟩ := List.mem_flatten.1 he
  obtain ⟨b, -, rfl⟩ := List.mem_map.1 hl
  exact mem_triPulses hp b e he

/-- A property of every pulse pair holds of every two-state frame (R259, R263). -/
theorem mem_binFrame {P : Event → Prop} {c : Snapshot} (hp : ∀ hi lo, ∀ e ∈ pulsePair c hi lo, P e) (s : List Byte) :
    ∀ e ∈ repeatFrame c (s.map (binPulses c)).flatten, P e := by
  refine mem_repeatFrame (fun e he => ?_) (mem_syncPulses hp)
  obtain ⟨l, hl, he⟩ := List.mem_flatten.1 he
  obtain ⟨b, -, rfl⟩ := List.mem_map.1 hl
  exact mem_binPulses hp b e he

theorem mem_sendBin {P : Event → Prop} {c : Snapshot} (hp : ∀ hi lo, ∀ e ∈ pulsePair c hi lo, P e) (s : List Byte) :
    ∀ e ∈ sendBin c s, P e := by
  unfold sendBin
  split
  · simp
  · exact mem_binFrame hp s

end Sys2Proof.Machine
end

