-- ==== Sys2Proof/Laws/Turns.lean ====
section
/-! SUPPORT. What a command, an MMIO access and a host's turn can do, each said once. -/

namespace Sys2Proof.Machine

/-! ### Commands -/

/-- A command always completes, changes nothing but the selected instance, and leaves what surrounds it and AWAIT alone. -/
theorem exec_effect (i : Instr) (s : State) :
    ∃ j, exec i s = .next (s.withInst j) ∧ j.out = s.inst.out ∧ j.await = s.inst.await := by
  cases i
  case initA => refine ⟨_, rfl, ?_⟩; split <;> exact ⟨rfl, rfl⟩
  case switchOn => refine ⟨_, rfl, ?_⟩; unfold switchTo; split <;> [skip; split] <;> exact ⟨rfl, rfl⟩
  case switchOff => refine ⟨_, rfl, ?_⟩; unfold switchTo; split <;> [skip; split] <;> exact ⟨rfl, rfl⟩
  case encodeOn => refine ⟨_, rfl, ?_⟩; unfold encodeOnly latchCw; split <;> [skip; split] <;> exact ⟨rfl, rfl⟩
  case encodeOff => refine ⟨_, rfl, ?_⟩; unfold encodeOnly latchCw; split <;> [skip; split] <;> exact ⟨rfl, rfl⟩
  case sendTristate => refine ⟨_, rfl, ?_⟩; split <;> exact ⟨rfl, rfl⟩
  case sendBinaryString => refine ⟨_, rfl, ?_⟩; split <;> exact ⟨rfl, rfl⟩
  case sendBytes => refine ⟨_, rfl, ?_⟩; split <;> [skip; split] <;> exact ⟨rfl, rfl⟩
  all_goals exact ⟨_, rfl, rfl, rfl⟩

/-! ### The address map -/

theorem targetOf_misaligned {size offset : Nat} (h : offset % 4 ≠ 0) : targetOf size offset = .misaligned := by
  simp [targetOf, h]

/-- Only offset 0 is CMD (20_memory.md R82). -/
theorem targetOf_ne_cmd {size offset : Nat} (h : offset ≠ 0) : targetOf size offset ≠ .cmd := by
  unfold targetOf
  split
  · simp
  · split
    · next t ht =>
      unfold registerMap at ht
      simp only [List.lookup] at ht
      rw [show (offset == 0) = false by simpa using h] at ht
      simp only at ht
      repeat' split at ht
      all_goals first | (injection ht with ht; subst ht; simp) | cases ht
    · split <;> simp

/-- A data buffer word's offset leads to its lowest byte (R82, R85). -/
theorem targetOf_dbuf {size k : Nat} (h : 4 * k < size) : targetOf size (0x100 + 4 * k) = .dbuf (4 * k) := by
  have hn : registerMap.lookup (0x100 + 4 * k) = none := by
    unfold registerMap
    simp [List.lookup]
    repeat' (split; simp at *; try omega)
    try rfl
  simp [targetOf, hn, h]

/-- Where an offset leads to the data buffer, all four bytes of the word lie in a buffer whose size is a multiple of 4. -/
theorem targetOf_dbuf_inside {size offset k : Nat} (hs : size % 4 = 0) (h : targetOf size offset = .dbuf k) :
    k + 3 < size := by
  unfold targetOf at h
  split at h
  · cases h
  split at h
  · next t ht =>
    subst h
    unfold registerMap at ht
    simp only [List.lookup] at ht
    repeat' split at ht
    all_goals cases ht
  · split at h
    · injection h with h; omega
    · cases h

theorem targetOf_reserved {size offset : Nat} (h : reservedOffset size offset) : targetOf size offset = .reserved := by
  obtain ⟨h4, h1, h2⟩ := h
  unfold targetOf
  rw [if_neg (by simpa using h4)]
  split
  · next t ht =>
    unfold registerMap at ht
    simp only [List.lookup] at ht
    exfalso
    repeat' split at ht
    all_goals first | (simp at *; omega) | cases ht
  · rw [if_neg]
    omega

/-! ### MMIO accesses -/

/-- A read changes no register; a misaligned one touches only ERR and ERRCODE (20_memory.md R81, R88). -/
theorem afterRead_cases (i : Instance) (t : Target) : afterRead i t = i ∨ t = .misaligned ∧ afterRead i t = raiseErr .badAccess i := by
  cases t <;> simp [afterRead]

/-- A write stores an argument or a data buffer word, or raises BAD_ACCESS (R82 to R84). -/
theorem afterWrite_cases (v : Word) (i : Instance) (t : Target) :
    t = .cmd ∧ afterWrite v i t = i ∨ t = .arg0 ∧ afterWrite v i t = { i with arg0 := v }
      ∨ t = .arg1 ∧ afterWrite v i t = { i with arg1 := v } ∨ t = .arg2 ∧ afterWrite v i t = { i with arg2 := v }
      ∨ (∃ k, t = .dbuf k ∧ afterWrite v i t = { i with dbuf := writeDbufWord i.dbuf k v })
      ∨ afterWrite v i t = raiseErr .badAccess i := by
  cases t <;> simp [afterWrite]

/-- What a read returns does not depend on the host's remaining accesses or on the turns. -/
theorem readTarget_hostMoved (s : State) (rest : List Access) (t : Target) :
    readTarget (s.hostMoved rest).latch (s.hostMoved rest).inst t = readTarget s.latch s.inst t := by
  cases t <;> rfl

/-! ### The host's turn -/

/-- Everything a host's turn can lead to: nothing (no access, or a held write), a read, a write to another place than CMD, a
command, or a word that is no command. -/
theorem hostTurn_cases {s t : State} (h : hostTurn s = .next t) :
    t = s
      ∨ (∃ offset rest, s.inst.out.host = .read offset :: rest ∧ t = mmioRead offset (s.withHost rest))
      ∨ (s.inst.busy = false ∧ ∃ offset v rest, s.inst.out.host = .write offset v :: rest
          ∧ targetOf s.params.dbufSize offset ≠ .cmd ∧ t = mmioWrite offset v (s.withHost rest))
      ∨ (s.inst.busy = false ∧ ∃ offset w rest i, s.inst.out.host = .write offset w :: rest
          ∧ decode w = .ok i ∧ exec i (s.withHost rest) = .next t)
      ∨ (s.inst.busy = false ∧ ∃ offset w rest, s.inst.out.host = .write offset w :: rest
          ∧ t = (s.withHost rest).withInst (raiseErr .illegalCmd (s.withHost rest).inst)) := by
  unfold hostTurn at h
  split at h
  · injection h with h; exact .inl h.symm
  · next offset rest hh =>
    split at h
    · injection h with h; exact .inr (.inl ⟨offset, rest, hh, h.symm⟩)
    · cases h
  · next offset v rest hh =>
    split at h
    · cases h
    split at h
    · injection h with h; exact .inl h.symm
    next hb =>
    have hb : s.inst.busy = false := by simpa using hb
    split at h
    · unfold runCommand at h
      split at h
      · next i hi => exact .inr (.inr (.inr (.inl ⟨hb, offset, v, rest, i, hh, hi, h⟩)))
      · injection h with h; exact .inr (.inr (.inr (.inr ⟨hb, offset, v, rest, hh, h.symm⟩)))
    · next hc => injection h with h; exact .inr (.inr (.inl ⟨hb, offset, v, rest, hh, hc, h.symm⟩))

/-! ### The sequencer's turn -/

/-- A presentation does nothing, or moves the head of the queue to the port (10_state.md R48). -/
theorem present_cases (s : State) :
    present s = s ∨ ∃ e rest, s.inst.await = false ∧ s.inst.queue = e :: rest ∧
      present s = { s with
        inst := { s.inst with queue := rest, await := true, out := { s.inst.out with events := s.inst.out.events ++ [e] } }
        latch := s.latch || decide (e = .init) } := by
  unfold present
  split
  · next e rest ha hq => exact .inr ⟨e, rest, ha, hq, rfl⟩
  · exact .inl rfl

end Sys2Proof.Machine
end

