-- ==== Sys2Proof/Tests/Slice0.lean ====
section
/-! SUPPORT. Tests on fixed values, each expected result taken from the spec (mostly 95_test_vectors.md), and for every
obligation with hypotheses a state that meets them. -/

namespace Sys2Proof.Machine.Tests

/-! ### Small states -/

/-- Parameters at the defaults of 00_scope.md R7, with TXINIT_GPIO as given. -/
def params (gpio : Bool) : Params := { dbufSize := 256, familyTable := familyTableDefault, txInitGpio := gpio }

/-- A platform of one instance whose turns are taken in the default order. -/
def plat (i : Instance) : State := { params := params false, before := [], inst := i, after := [], latch := false, turns := [] }

/-- An instance at its reset values. -/
def inst0 : Instance := Instance.reset 0

/-- An instance whose host has these accesses to make. -/
def hosted (l : List Access) (i : Instance) : Instance := { i with out := { i.out with host := l } }

/-- Bytes written from an index on. -/
def cells (start : Nat) (l : List Byte) : Memory := l.zipIdx.map fun x => (start + x.2, x.1)

/-- Something of the selected instance after a step or a command. -/
def after {α : Type} (r : Result) (f : Instance → α) : Option α :=
  match r with
  | .next t => some (f t.inst)
  | _ => none

/-- A disabled or enabled pin with pulse length 350. -/
def snap (pin : Word) (unit protocol count : Int) : Snapshot := ⟨pin, unit, protocol, count⟩

/-- One pulse pair on pin 17 (`H17(a, b)` of 95_test_vectors.md). -/
def h17 (a b : Int) : List Event := [.write 17 true, .delay (BitVec.ofInt 64 a), .write 17 false, .delay (BitVec.ofInt 64 b)]

/-- One pulse pair on the disabled pin (`D(a, b)`). -/
def dd (a b : Int) : List Event := [.delay (BitVec.ofInt 64 a), .delay (BitVec.ofInt 64 b)]

/-- An instance bound to variant B with address 1 and channel 1. -/
def instB : Instance := { inst0 with variant := .b, paramN0 := 1, paramN1 := 1 }

/-! ### Decoding: words written out from 30_encoding.md R124 (OP in bits 7:0, RSV = 0) -/

theorem test_decode_initA : decode 0b00000000000000000000000000000001#32 = .ok .initA := by decide
theorem test_decode_initB : decode 0b00000000000000000000000000000010#32 = .ok .initB := by decide
theorem test_decode_initC : decode 0b00000000000000000000000000000011#32 = .ok .initC := by decide
theorem test_decode_initD : decode 0b00000000000000000000000000000100#32 = .ok .initD := by decide
theorem test_decode_txInit : decode 0b00000000000000000000000000000101#32 = .ok .txInit := by decide
theorem test_decode_enableTransmit : decode 0b00000000000000000000000000001000#32 = .ok .enableTransmit := by decide
theorem test_decode_setPulseLength : decode 0b00000000000000000000000000001001#32 = .ok .setPulseLength := by decide
theorem test_decode_setRepeatTransmit : decode 0b00000000000000000000000000001010#32 = .ok .setRepeatTransmit := by decide
theorem test_decode_setProtocol : decode 0b00000000000000000000000000001011#32 = .ok .setProtocol := by decide
theorem test_decode_switchOn : decode 0b00000000000000000000000000010000#32 = .ok .switchOn := by decide
theorem test_decode_switchOff : decode 0b00000000000000000000000000010001#32 = .ok .switchOff := by decide
theorem test_decode_encodeOn : decode 0b00000000000000000000000000010010#32 = .ok .encodeOn := by decide
theorem test_decode_encodeOff : decode 0b00000000000000000000000000010011#32 = .ok .encodeOff := by decide
theorem test_decode_sendTristate : decode 0b00000000000000000000000000100000#32 = .ok .sendTristate := by decide
theorem test_decode_sendBinaryString : decode 0b00000000000000000000000000100001#32 = .ok .sendBinaryString := by decide
theorem test_decode_sendBytes : decode 0b00000000000000000000000000100010#32 = .ok .sendBytes := by decide

/-- 95_test_vectors.md 2.11: words that are no command, each rejected by name. -/
theorem test_decode_reserved : decode 0x00000000 = .error .reservedOpcode ∧ decode 0x000000FF = .error .reservedOpcode
    ∧ decode 0x00000110 = .error .reservedBits ∧ decode 0x80000010 = .error .reservedBits := by decide

/-- The gaps of the opcode space around the table's rows (30_encoding.md R124). -/
theorem test_decode_gaps : ([0x06, 0x07, 0x0C, 0x0F, 0x14, 0x1F, 0x23, 0x24] : List Word).map decode = List.replicate 8 (.error .reservedOpcode) := by decide

theorem test_decodeTableWord : decodeTableWord 32 0x10 = some .switchOn ∧ decodeTableWord 8 0x10 = some .switchOn
    ∧ decodeTableWord 32 0x110 = none ∧ decodeTableWord 40 0x100000010 = none := by decide

/-- The placed word is run by the next step, from reset. -/
theorem test_placed_word_runs :
    step (State.reset.withFetchWord 32 0x00000009) = .next { State.reset with inst := { State.reset.inst with pulse := 0 } } := rfl

/-! ### Well-formedness: each check accepts its boundary and refuses what lies beyond it (30_encoding.md R123, R130, R132; 00_scope.md R7) -/

theorem test_wf_commands : ∀ i ∈ allCommands, i.wf = true := by decide
theorem test_wf_line : (AsmLine.command .initC [.char 0x61, .int (-2147483648), .int 4294967295]).wf 256 = true := by decide
theorem test_wf_refuses_small_int : (AsmLine.command .setProtocol [.int (-2147483649)]).wf 256 = false := by decide
theorem test_wf_refuses_large_int : (AsmLine.command .setProtocol [.int 4294967296]).wf 256 = false := by decide
theorem test_wf_refuses_missing_operand : (AsmLine.command .initB [.int 1]).wf 256 = false := by decide
theorem test_wf_refuses_extra_operand : (AsmLine.command .switchOn [.int 1]).wf 256 = false := by decide
theorem test_wf_refuses_char_for_int : (AsmLine.command .setProtocol [.char 0x31]).wf 256 = false := by decide
theorem test_wf_refuses_int_for_char : (AsmLine.command .initD [.int 65, .int 1]).wf 256 = false := by decide
theorem test_wf_refuses_int_for_ptr : (AsmLine.command .sendTristate [.int 0]).wf 256 = false := by decide
theorem test_wf_pointer : (AsmLine.command .sendTristate [.ptr 255]).wf 256 = true := by decide
theorem test_wf_refuses_pointer : (AsmLine.command .sendTristate [.ptr 256]).wf 256 = false := by decide
theorem test_wf_dbuf : (AsmLine.dbuf 254 [0x30]).wf 256 = true := by decide
theorem test_wf_refuses_dbuf : (AsmLine.dbuf 255 [0x30]).wf 256 = false := by decide
theorem test_wf_dbufb : (AsmLine.dbufb 255 [0x30]).wf 256 = true := by decide
theorem test_wf_refuses_dbufb : (AsmLine.dbufb 255 [0x30, 0x31]).wf 256 = false := by decide
theorem test_wf_call : (SourceCall.transmitterSendBytes [0xA5] 1 0).wf = true ∧ (SourceCall.transmitterSendBytes [] (-1) 0).wf = true := by decide
theorem test_wf_refuses_call : (SourceCall.transmitterSendBytes [0xA5] 2 0).wf = false := by decide
theorem test_wf_params : (params false).wf = true := by decide
theorem test_wf_params_bounds : { params true with dbufSize := 16 }.wf = true ∧ { params true with dbufSize := 3840 }.wf = true := by decide
theorem test_wf_refuses_odd_size : { params true with dbufSize := 258 }.wf = false := by decide
theorem test_wf_refuses_small_size : { params true with dbufSize := 12 }.wf = false := by decide
theorem test_wf_refuses_large_size : { params true with dbufSize := 3844 }.wf = false := by decide
theorem test_wf_refuses_short_table : { params true with familyTable := familyTableDefault.take 15 }.wf = false := by decide
theorem test_wf_refuses_short_pattern : { params true with familyTable := familyTableDefault.set 3 [ch0, chF] }.wf = false := by decide
theorem test_wf_refuses_symbol : { params true with familyTable := familyTableDefault.set 3 [ch0, chF, ch1, ch0] }.wf = false := by decide
theorem test_wf_refuses_first_pattern : { params true with familyTable := familyTableDefault.set 0 [ch0, chF, ch0, ch0] }.wf = false := by decide

/-! ### dec2bin and the encoders (95_test_vectors.md S1 to S10, 2.1 to 2.5) -/

theorem test_dec2bin_zero : dec2bin 0#4 chF = ascii "FFFF" := by decide
theorem test_dec2bin_order : dec2bin 8#4 chF = ascii "1FFF" ∧ dec2bin 1#3 chF = ascii "FF1" ∧ dec2bin 5#4 ch0 = ascii "0101" := by decide
theorem test_encodeA : encodeA (ascii "10000") (ascii "01000") true = some (ascii "0FFFFF0FFF0F") := by decide
/-- Every byte but '0', NUL included, gives '0'. -/
theorem test_encodeA_other : encodeA (ascii "abcde") (ascii "0000" ++ [chNul]) true = some (ascii "00000FFFF00F") := by decide
theorem test_encodeB : encodeB 4 2 false = some (ascii "FFF0F0FFFFF0") ∧ encodeB 1 1 true = some (ascii "0FFF0FFFFFFF") := by decide
theorem test_encodeB_none : encodeB 0 1 true = none ∧ encodeB 5 1 true = none ∧ encodeB 1 (-1) false = none := by decide
theorem test_encodeC : encodeC familyTableDefault 0x62 1 2 false = some (ascii "F000F0000FF0")
    ∧ encodeC familyTableDefault 0x63 3 2 true = some (ascii "0F00F00F0FFF")
    ∧ encodeC familyTableDefault 0x70 4 4 true = some (ascii "FFFFFFFF0FFF") := by decide
theorem test_encodeC_none : encodeC familyTableDefault 0x60 1 1 true = none ∧ encodeC familyTableDefault 0x71 1 1 true = none
    ∧ encodeC familyTableDefault 0x41 1 1 true = none ∧ encodeC familyTableDefault 0x61 0 1 true = none
    ∧ encodeC familyTableDefault 0x61 1 5 true = none := by decide
theorem test_encodeD : encodeD 0x41 1 true = some (ascii "1FFF1FF00010") ∧ encodeD 0x62 2 false = some (ascii "F1FFF1F00001")
    ∧ encodeD 0x43 1 true = some (ascii "FF1F1FF00010") ∧ encodeD 0x44 3 true = some (ascii "FFF1FF100010") := by decide
theorem test_encodeD_none : encodeD 0x45 1 true = none ∧ encodeD 0x41 0 true = none ∧ encodeD 0x41 4 true = none := by decide

/-! ### The transmitter (95_test_vectors.md 2.7, 2.8) -/

theorem test_tri_F : sendTri (snap 17 350 1 1) (ascii "F") = h17 350 1050 ++ h17 1050 350 ++ h17 350 10850 := by decide
theorem test_tri_1_protocol3 : sendTri (snap 17 350 3 1) (ascii "1") = h17 1050 350 ++ h17 1050 350 ++ h17 350 24850 := by decide
theorem test_tri_skips : sendTri (snap 17 350 1 1) (ascii "f1") = h17 1050 350 ++ h17 1050 350 ++ h17 350 10850 := by decide
theorem test_tri_negative_count : sendTri (snap 17 350 1 (-5)) (ascii "0F") = [] := by decide
theorem test_tri_empty : sendTri (snap (-1) 350 1 3) [] = dd 350 10850 ++ dd 350 10850 ++ dd 350 10850 := by decide
theorem test_tri_unsupported : sendTri (snap 17 350 9 1) (ascii "F") = h17 350 1050 ++ h17 1050 350 := by decide
theorem test_bin_protocols : sendBin (snap (-1) 350 2 1) (ascii "01") = dd 350 700 ++ dd 700 350 ++ dd 350 3500
    ∧ sendBin (snap (-1) 350 3 1) (ascii "01") = dd 1400 3850 ++ dd 3150 2100 ++ dd 350 24850 := by decide
theorem test_bin_negative_unit : sendBin (snap 17 (-10) 2 1) (ascii "1") = h17 (-20) (-10) ++ h17 (-10) (-100) := by decide
theorem test_bin_exact : sendBin (snap 17 2147483647 3 1) (ascii "0") = h17 8589934588 23622320117 ++ h17 2147483647 152471338937 := by decide
theorem test_bin_edges : sendBin (snap (-1) 350 1 3) [] = [] ∧ sendBin (snap (-1) 350 1 1) (ascii "x") = dd 350 10850
    ∧ sendBin (snap 17 350 9 1) (ascii "0101") = [] := by decide
theorem test_bytesToBits : bytesToBits [0xA5] = ascii "10100101" := by decide

/-! ### The commands, at most two tests each (95_test_vectors.md 2.6, 2.10, 2.11) -/

theorem test_initA : after (exec .initA (plat { inst0 with arg1 := 8, dbuf := cells 0 (ascii "10000") ++ cells 8 (ascii "01000") }))
    (fun i => (i.paramA, i.variant)) = some (ascii "1000001000", .a) := by decide
theorem test_initA_range : after (exec .initA (plat { inst0 with arg1 := 252 })) (fun i => (i.variant, i.errCode)) = some (.none, .dbufRange) := by decide
theorem test_initB : after (exec .initB (plat { inst0 with arg0 := 7, arg1 := 1, pin := 17 }))
    (fun i => (i.variant, i.paramN0, i.paramN1, i.pin, i.err)) = some (.b, 7, 1, 0xFFFFFFFF, false) := by decide
theorem test_initC : after (exec .initC (plat { inst0 with arg0 := 0x00000161, arg1 := 2, arg2 := 3 }))
    (fun i => (i.variant, i.paramCh, i.paramN0, i.paramN1)) = some (.c, 0x61, 2, 3) := by decide
theorem test_initD : after (exec .initD (plat { inst0 with arg0 := 0x62, arg1 := 2, paramN1 := 5, cwValid := true }))
    (fun i => (i.variant, i.paramCh, i.paramN0, i.paramN1, i.cwValid)) = some (.d, 0x62, 2, 0, false) := by decide
theorem test_txInit_silent : after (exec .txInit (plat { inst0 with arg0 := 5 })) (fun i => (i.pin, i.queue)) = some (5, []) := by decide
theorem test_txInit_bringUp : after (exec .txInit { plat { inst0 with arg0 := 5 } with params := params true })
    (fun i => (i.pin, i.queue)) = some (5, [.init, .cfgOut 5]) := by decide
theorem test_enableTransmit : after (exec .enableTransmit (plat { inst0 with arg0 := 17 }))
    (fun i => (i.pin, i.queue)) = some (17, [.init, .cfgOut 17]) := by decide
theorem test_enableTransmit_disabled : after (exec .enableTransmit (plat { inst0 with arg0 := 0xFFFFFFFF })) (·.queue) = some [.init]
    ∧ after (exec .enableTransmit { plat { inst0 with arg0 := 17 } with latch := true }) (·.queue) = some [.cfgOut 17] := by decide
theorem test_setPulseLength : after (exec .setPulseLength (plat { inst0 with arg0 := 300 })) (·.pulse) = some 300 := by decide
theorem test_setRepeatTransmit : after (exec .setRepeatTransmit (plat inst0)) (·.repeatCount) = some 0 := by decide
theorem test_setProtocol : after (exec .setProtocol (plat { inst0 with arg0 := 0xFFFFFFFF })) (·.protocol) = some 0xFFFFFFFF := by decide
theorem test_switchOn : after (exec .switchOn (plat { instB with repeatCount := 1 }))
    (fun i => (i.cw, i.cwValid, i.queue.length, delaySum i.queue)) = some (ascii "0FFF0FFFFFFF", true, 50, 44800) := by decide
theorem test_switchOn_invalid : after (exec .switchOn (plat { instB with paramN0 := 7, cwValid := true }))
    (fun i => (i.cwValid, i.queue, i.err)) = some (false, [], false) := by decide
theorem test_switchOff : after (exec .switchOff (plat { instB with repeatCount := 0 }))
    (fun i => (i.cw, i.cwValid, i.queue)) = some (ascii "0FFF0FFFFFF0", true, []) := by decide
theorem test_switchOff_noVariant : after (exec .switchOff (plat inst0)) (fun i => (i.err, i.errCode)) = some (true, .noVariant) := by decide
theorem test_encodeOn_keeps : after (exec .encodeOn (plat { instB with paramN0 := 5, cw := ascii "0FFF0FFFFFFF", cwValid := true }))
    (fun i => (i.cw, i.cwValid)) = some (ascii "0FFF0FFFFFFF", false) := by decide
theorem test_encodeOff : after (exec .encodeOff (plat { inst0 with variant := .d, paramCh := 0x41, paramN0 := 1 }))
    (fun i => (i.cw, i.cwValid)) = some (ascii "1FFF1FF00001", true) := by decide
theorem test_sendTristate : after (exec .sendTristate (plat { inst0 with repeatCount := 1, dbuf := cells 0 [0x30, 0x00] }))
    (·.queue) = some (dd 350 1050 ++ dd 350 1050 ++ dd 350 10850) := by decide
theorem test_sendTristate_range : after (exec .sendTristate (plat { inst0 with arg0 := 252, dbuf := cells 252 (ascii "0101") }))
    (fun i => (i.errCode, i.queue)) = some (.dbufRange, []) := by decide
theorem test_sendBinaryString : after (exec .sendBinaryString (plat { inst0 with repeatCount := 1, dbuf := cells 0 [0x31, 0x00] }))
    (·.queue) = some (dd 1050 350 ++ dd 350 10850) := by decide
theorem test_sendBinaryString_range : after (exec .sendBinaryString (plat { inst0 with arg0 := 256 })) (·.errCode) = some .dbufRange := by decide
theorem test_sendBytes : after (exec .sendBytes (plat { inst0 with repeatCount := 1, arg1 := 1, dbuf := cells 0 [0x80] }))
    (·.queue) = some (dd 1050 350 ++ (List.replicate 7 (dd 350 1050)).flatten ++ dd 350 10850) := by decide
theorem test_sendBytes_range : after (exec .sendBytes (plat { inst0 with arg0 := 252, arg1 := 8 })) (·.errCode) = some .dbufRange
    ∧ after (exec .sendBytes (plat { inst0 with arg0 := 0x7FFFFFFF })) (·.errCode) = some .noError := by decide

/-! ### MMIO (95_test_vectors.md 2.2, 2.11, P1, P3) -/

/-- P1's end state reads 0x00000206, P3's 0x00000402 and 0x00000018. -/
theorem test_status : statusWord true { instB with cwValid := true } = 0x00000206
    ∧ statusWord false { inst0 with variant := .d, cwValid := true } = 0x00000402
    ∧ statusWord false { inst0 with err := true, errCode := .illegalCmd } = 0x00000018
    ∧ statusWord false { inst0 with await := true } = 0x00000001 := by decide
theorem test_cw_words : (let i := { inst0 with cw := ascii "0FFFFF0FFF0F" }
    (wordAt i.cw 0, wordAt i.cw 4, wordAt i.cw 8)) = ((0x46464630 : Word), (0x46304646 : Word), (0x46304646 : Word)) := by decide
theorem test_read_paramA2 : readTarget false { inst0 with paramA := ascii "1000001000" } (targetOf 256 0x048) = 0x00003030 := by decide
theorem test_write_status : after (step (plat (hosted [.write 0x004 1] inst0))) (fun i => (i.err, i.errCode)) = some (true, .badAccess) := by decide
theorem test_write_pulse : after (step (plat (hosted [.write 0x024 500] inst0))) (fun i => (i.pulse, i.errCode)) = some (350, .badAccess) := by decide
theorem test_read_misaligned : after (step (plat (hosted [.read 0x006] inst0))) (fun i => (i.out.reads, i.errCode)) = some ([(6, 0)], .badAccess) := by decide
theorem test_read_reserved : after (step (plat (hosted [.read 0x014] inst0))) (fun i => (i.out.reads, i.err)) = some ([(0x14, 0)], false) := by decide
theorem test_write_misaligned : after (step (plat (hosted [.write 0x101 0] inst0))) (fun i => (i.dbuf, i.errCode)) = some ([], .badAccess) := by decide
theorem test_illegal_word : after (step (plat (hosted [.write 0x000 0x000001FF] inst0))) (·.errCode) = some .illegalCmd := by decide
theorem test_first_error_kept : after (exec .switchOn (plat { inst0 with err := true, errCode := .illegalCmd })) (·.errCode) = some .illegalCmd := by decide
theorem test_write_held : after (step { plat (hosted [.write 0x008 5] { inst0 with await := true }) with turns := [.host] })
    (fun i => (i.arg0, i.out.host)) = some (0, [.write 0x008 5]) := by decide
theorem test_dbuf_lanes : after (step (plat (hosted [.write 0x100 0x30303231] inst0))) (·.dbuf)
    = some [(0, 0x31), (1, 0x32), (2, 0x30), (3, 0x30)] := by decide
theorem test_acknowledge : after (step (plat { inst0 with await := true })) (·.await) = some false := by decide

/-! ### The assembler (95_test_vectors.md P1 to P4) -/

theorem test_parse : parseLine (ascii "INIT_C 'q', 1, 1") = some (.command .initC [.char 0x71, .int 1, .int 1])
    ∧ parseLine (ascii "SEND_BYTES @252, 8") = some (.command .sendBytes [.ptr 252, .int 8])
    ∧ parseLine (ascii "TX_INIT -1") = some (.command .txInit [.int (-1)]) := by decide
/-- The model's choice (log 23): an index in decimal or hex. -/
theorem test_parse_index : parseLine (ascii "SEND_TRISTATE @0x10") = some (.command .sendTristate [.ptr 16])
    ∧ parseLine (ascii "SEND_TRISTATE @-1") = none := by decide
theorem test_parse_directives : parseLine (ascii ".dbuf 8, \"01000\"") = some (.dbuf 8 (ascii "01000"))
    ∧ parseLine (ascii ".dbufb 0, 0xA5") = some (.dbufb 0 [0xA5]) ∧ parseLine (ascii "SWITCH_ON") = some (.command .switchOn []) := by decide
theorem test_expand : expandCommand .initD [.char 0x62, .int 2] = [.write 0x008 0x62, .write 0x00C 2, .write 0x000 4]
    ∧ expandCommand .txInit [.int (-1)] = [.write 0x008 0xFFFFFFFF, .write 0x000 5] := by decide
/-- 30_encoding.md R133: n is handed on as it is, and only data[0] to data[n-1] are put into the buffer. -/
theorem test_expand_sendBytes :
    expandCall (.transmitterSendBytes [0xA5, 0x5A] 1 4) = [.dbufb 4 [0xA5], .command .sendBytes [.ptr 4, .int 1]]
      ∧ expandCall (.transmitterSendBytes [0xA5] (-1) 4) = [.dbufb 4 [], .command .sendBytes [.ptr 4, .int (-1)]] := by decide
theorem test_expand_dbufb : expandLine { inst0 with dbuf := cells 0 [1, 2, 3, 4] } (.dbufb 1 [0xA5])
    = [.read 0x100, .write 0x100 0x0403A501] := by decide

/-! ### Witnesses: for each obligation with hypotheses, a state that meets them, for each clause and at the ends of its range -/

/-- A platform whose host is about to make access `a`. -/
def about (a : Access) (i : Instance) : State := plat (hosted [a] i)

/-- An instance with the bring-up events pending. -/
def pending : Instance := { inst0 with queue := [.init, .cfgOut 17] }

theorem witness_ReservedWordOnlyRecordsIllegalCmd :
    (about (.write 0 0x110) inst0).hostAbout (.write 0x000 0x110) [] ∧ (about (.write 0 0x110) inst0).inst.busy = false
      ∧ (0x110 : Word).toNat ∉ [0x01, 0x02, 0x03, 0x04, 0x05, 0x08, 0x09, 0x0A, 0x0B, 0x10, 0x11, 0x12, 0x13, 0x20, 0x21, 0x22] := by decide

theorem witness_StepRunsDecodedCommand :
    (about (.write 0 0x22) inst0).hostAbout (.write 0x000 0x22) [] ∧ (about (.write 0 0x22) inst0).inst.busy = false
      ∧ decode 0x22 = .ok .sendBytes := by decide

theorem witness_WritesHeldExactlyWhileBusy_busy :
    ({ about (.write 0xFFF 1) pending with turns := [.host] }).hostAbout (.write 0xFFF 1) []
      ∧ ({ about (.write 0xFFF 1) pending with turns := [.host] }).inst.busy = true := by decide
theorem witness_WritesHeldExactlyWhileBusy_idle :
    (about (.write 0 1) inst0).hostAbout (.write 0 1) [] ∧ (about (.write 0 1) inst0).inst.busy = false
      ∧ (about (.write 0xFFF 1) inst0).hostAbout (.write 0xFFF 1) [] ∧ (about (.write 0xFFF 1) inst0).inst.busy = false := by decide
theorem witness_WritesHeldExactlyWhileBusy_read :
    (about (.read 0xFFF) inst0).hostAbout (.read 0xFFF) [] ∧ (about (.read 0) inst0).hostAbout (.read 0) [] := by decide

theorem witness_MisalignedAccessRaisesBadAccess :
    (about (.read 1) inst0).hostAbout (.read 1) [] ∧ (about (.read 0xFFF) inst0).hostAbout (.read 0xFFF) []
      ∧ (about (.write 0xFFF 7) inst0).hostAbout (.write 0xFFF 7) [] ∧ (about (.write 0xFFF 7) inst0).inst.busy = false := by decide

theorem witness_ReservedOffsetsReadZeroAndRejectWrites :
    (∀ offset ∈ [0x014, 0x01C, 0x03C, 0x04C, 0x05C, 0x0FC, 0x200, 0xFFC], reservedOffset 256 offset)
      ∧ (about (.read 0x014) inst0).hostAbout (.read 0x014) [] ∧ (about (.write 0xFFC 7) inst0).hostAbout (.write 0xFFC 7) []
      ∧ (about (.write 0xFFC 7) inst0).inst.busy = false := by decide

theorem witness_ReadOnlyRegistersRejectWrites :
    ∀ offset ∈ [0x004, 0x058], (about (.write offset 7) inst0).hostAbout (.write offset 7) [] ∧ (about (.write offset 7) inst0).inst.busy = false := by
  decide

/-- The host's access is no write to CMD. -/
theorem witness_ReadOnlyRegistersRejectWrites_other :
    nextTurn (about (.write 0x024 7) inst0) = .host ∧ (∀ v rest, (about (.write 0x024 7) inst0).inst.out.host ≠ .write 0x000 v :: rest)
      ∧ ∃ t, step (about (.write 0x024 7) inst0) = .next t :=
  ⟨rfl, fun v rest h => by injection h with h _; injection h with h _; exact absurd h (by decide), _, rfl⟩

theorem witness_AlignedReadsReturnRegisterValues :
    (about (.read 0xFFC) inst0).hostAbout (.read 0xFFC) [] ∧ (about (.read 0x000) inst0).hostAbout (.read 0x000) []
      ∧ (0x038, inst0.paramN1) ∈ [(0x034, inst0.paramN0), (0x038, inst0.paramN1)] := by decide

theorem witness_ArgumentRegisterWritesStoreTheWord :
    ∀ offset ∈ [0x008, 0x00C, 0x010], (about (.write offset 7) inst0).hostAbout (.write offset 7) [] ∧ (about (.write offset 7) inst0).inst.busy = false := by
  decide

theorem witness_DbufWordWriteStoresFourBytes :
    (about (.write 0x1FC 7) inst0).params.wf = true ∧ 4 * 63 < (about (.write 0x1FC 7) inst0).params.dbufSize
      ∧ (about (.write 0x1FC 7) inst0).hostAbout (.write (0x100 + 4 * 63) 7) [] ∧ (about (.write 0x1FC 7) inst0).inst.busy = false
      ∧ (about (.write 0x100 7) inst0).hostAbout (.write (0x100 + 4 * 0) 7) [] := by decide

theorem witness_WordReadsPackBytesLittleEndian :
    (plat inst0).params.wf = true ∧ 4 * 63 < (plat inst0).params.dbufSize ∧ inst0.paramA.length = 10 ∧ inst0.cw.length = 12 := by decide

theorem witness_AccessOutsideWindowFaults :
    (about (.read 0x1000) inst0).hostAbout (.read 0x1000) []
      ∧ ({ about (.write 0x1000 7) pending with turns := [.host] }).hostAbout (.write 0x1000 7) [] := by decide

theorem witness_SequencerPresentsThenAwaitsAcknowledgement :
    nextTurn (plat pending) = .sequencer ∧ pending.await = false ∧ pending.queue = .init :: [.cfgOut 17]
      ∧ nextTurn { plat inst0 with turns := [.sequencer] } = .sequencer ∧ inst0.queue = []
      ∧ nextTurn (plat { pending with await := true }) = .gpio ∧ pending.out.hung = false := by decide

theorem witness_QueueDrainsToPortInOrder :
    (plat pending).turns = [] ∧ (plat pending).inst.await = false ∧ (plat pending).inst.out.hung = false ∧ pending.queue ≠ [] := by decide

theorem witness_HungCapabilityKeepsInstanceBusy :
    let s := plat { hosted [.read 0x004] inst0 with await := true, out := { host := [.read 0x004], hung := true, events := [], reads := [] } }
    s.inst.out.hung = true ∧ s.inst.await = true ∧ nextTurn s = .host ∧ ∃ t, step s = .next t := ⟨rfl, rfl, rfl, _, rfl⟩

theorem witness_LatchSetByInitClearedByPowerOn_set :
    ∃ t, step (plat pending) = .next t ∧ (plat pending).latch = false ∧ t.latch = true := ⟨_, rfl, rfl, rfl⟩
theorem witness_LatchSetByInitClearedByPowerOn_clear :
    ∃ t, step { plat inst0 with latch := true, turns := [.powerOn] } = .next t ∧ t.latch = false := ⟨_, rfl, rfl⟩


/-- Two instances, the first selected. -/
def two (turn : Turn) : State := { plat pending with after := [Instance.reset 1], turns := [turn] }

/-- Two idle instances, the second selected, whose hosts are about to write ENABLE_TRANSMIT. -/
def race (turns : List Turn) : State :=
  { plat (hosted [.write 0x000 8] inst0) with before := [hosted [.write 0x000 8] (Instance.reset 1)], turns := turns }

theorem witness_BringUpRaceAdmitsTwoInits :
    let s := race ([.host, .select 0, .host, .sequencer, .select 1, .sequencer] ++ [])
    let other := hosted [.write 0x000 8] (Instance.reset 1)
    s.latch = false ∧ 0 ≠ s.before.length ∧ s.instances[0]? = some other ∧ s.inst.busy = false ∧ other.busy = false
      ∧ s.inst.out.host = .write 0x000 0x00000008 :: [] ∧ other.out.host = .write 0x000 0x00000008 :: []
      ∧ s.turns = [.host, .select 0, .host, .sequencer, .select s.before.length, .sequencer] ++ [] := by decide
theorem witness_BringUpRaceAdmitsTwoInits_once :
    let s := race ([.host, .sequencer, .select 0, .host] ++ [])
    s.latch = false ∧ 0 ≠ s.before.length ∧ s.instances[0]? = some (hosted [.write 0x000 8] (Instance.reset 1)) ∧ s.inst.busy = false
      ∧ s.turns = [.host, .sequencer, .select 0, .host] ++ [] := by decide

theorem witness_InstancesShareOnlyLatch_step :
    ∃ t, step (two .sequencer) = .next t ∧ nextTurn (two .sequencer) = .sequencer := ⟨_, rfl, rfl⟩
theorem witness_InstancesShareOnlyLatch_select :
    ∃ t, step (two (.select 1)) = .next t ∧ nextTurn (two (.select 1)) = .select 1 ∧ (two (.select 1)).instances[1]? = some (Instance.reset 1) :=
  ⟨_, rfl, rfl, rfl⟩

theorem witness_ResetValues : State.reset.inst ∈ State.reset.instances := .head _
theorem witness_PowerOnResetsEveryInstance : nextTurn (two .powerOn) = .powerOn := rfl

theorem witness_InitACopiesTenBytes :
    let s := plat { inst0 with arg0 := 0, arg1 := 251 }
    let t := plat { inst0 with arg0 := 252, arg1 := 0 }
    s.inst.arg0.toNat + 5 ≤ s.params.dbufSize ∧ s.inst.arg1.toNat + 5 ≤ s.params.dbufSize
      ∧ t.params.dbufSize < t.inst.arg0.toNat + 5 := by decide

theorem witness_VariantAInvertsTenCharacters : (ascii "10000").length = 5 ∧ (ascii "01000").length = 5 := by decide
/-- An instance of each variant. -/
theorem witness_variants : instB.variant = .b ∧ ({ instB with variant := .a } : Instance).variant = .a
    ∧ ({ instB with variant := .c } : Instance).variant = .c ∧ ({ instB with variant := .d } : Instance).variant = .d := by decide
theorem witness_VariantBOneZeroPerPattern : ∃ w v, encodeB 1 4 true = some w ∧ encodeB 4 1 false = some v := ⟨_, _, rfl, rfl⟩
theorem witness_VariantCEmitsIndexLsbFirst :
    (params false).wf = true ∧ ∃ w v, encodeC (params false).familyTable 0x61 1 1 true = some w
      ∧ encodeC (params false).familyTable 0x70 4 4 false = some v := ⟨by decide, _, _, rfl, rfl⟩
theorem witness_VariantDMarksGroupDeviceAndState :
    ∃ w v, encodeD 0x41 1 true = some w ∧ encodeD 0x64 3 false = some v := ⟨_, _, rfl, rfl⟩
theorem witness_CodewordsAreTwelveTristateSymbols :
    (params false).wf = true ∧ instB.paramA.length = 10 ∧ ∃ w, encodeCodeword (params false).familyTable instB true = some w :=
  ⟨by decide, rfl, _, rfl⟩
theorem witness_OnAndOffDifferOnlyInStatusSymbols :
    (params false).wf = true ∧ instB.paramA.length = 10 ∧ instB.variant ≠ .none
      ∧ ∃ w v, encodeCodeword (params false).familyTable instB true = some w
        ∧ encodeCodeword (params false).familyTable instB false = some v :=
  ⟨by decide, rfl, by decide, _, _, rfl, rfl⟩
/-- Variant D, whose status symbols are the last two, and variant A, likewise. -/
theorem witness_OnAndOffDifferOnlyInStatusSymbols_two :
    ∃ w v, encodeCodeword (params false).familyTable { inst0 with variant := .d, paramCh := 0x41, paramN0 := 1 } true = some w
      ∧ encodeCodeword (params false).familyTable { inst0 with variant := .a } false = some v := ⟨_, _, rfl, rfl⟩
theorem witness_EncoderReadsOnlyStoredParameters :
    let j := { instB with pin := 17, protocol := 3, cwValid := true }
    instB ≠ j ∧ instB.variant = j.variant ∧ instB.paramA = j.paramA ∧ instB.paramCh = j.paramCh ∧ instB.paramN0 = j.paramN0
      ∧ instB.paramN1 = j.paramN1 := by decide

theorem witness_EncodeCommandsLatchTheCodeword :
    (plat inst0).inst.variant = .none ∧ (plat instB).inst.variant ≠ .none
      ∧ (∃ w v, encodeCodeword (plat instB).params.familyTable instB true = some w
        ∧ encodeCodeword (plat instB).params.familyTable instB false = some v) := ⟨rfl, by decide, _, _, rfl, rfl⟩
theorem witness_EncodeCommandsLatchTheCodeword_none :
    let i := { instB with paramN0 := 0 }
    i.variant ≠ .none ∧ encodeCodeword (plat i).params.familyTable i true = none
      ∧ encodeCodeword (plat i).params.familyTable i false = none := by decide
theorem witness_SwitchCommandsQueueTheWaveform :
    (plat inst0).inst.variant = .none ∧ (plat instB).inst.variant ≠ .none
      ∧ (∃ w v, encodeCodeword (plat instB).params.familyTable instB true = some w
        ∧ encodeCodeword (plat instB).params.familyTable instB false = some v) := witness_EncodeCommandsLatchTheCodeword
theorem witness_SwitchCommandsQueueTheWaveform_none :
    let i := { instB with paramN1 := 5 }
    i.variant ≠ .none ∧ encodeCodeword (plat i).params.familyTable i true = none
      ∧ encodeCodeword (plat i).params.familyTable i false = none := by decide
theorem witness_RepeatedSwitchOnRepeatsTheWaveform :
    let s := plat instB
    let s' := plat { instB with arg0 := 3, cw := ascii "0FFF0FFFFFF0", queue := [.init] }
    s ≠ s' ∧ s.params.familyTable = s'.params.familyTable ∧ s.inst.variant = s'.inst.variant ∧ s.inst.paramA = s'.inst.paramA
      ∧ s.inst.paramCh = s'.inst.paramCh ∧ s.inst.paramN0 = s'.inst.paramN0 ∧ s.inst.paramN1 = s'.inst.paramN1
      ∧ s.inst.pin = s'.inst.pin ∧ s.inst.pulse = s'.inst.pulse ∧ s.inst.repeatCount = s'.inst.repeatCount
      ∧ s.inst.protocol = s'.inst.protocol ∧ s.inst.variant ≠ .none := by decide
theorem witness_RepeatedSwitchOnRepeatsTheWaveform_run :
    let s := plat (hosted [.write 0x000 0x00000010, .write 0x000 0x00000010] instB)
    s.turns = [] ∧ s.inst.busy = false ∧ s.inst.out.hung = false
      ∧ s.inst.out.host = .write 0x000 0x00000010 :: .write 0x000 0x00000010 :: [] ∧ s.inst.variant ≠ .none
      ∧ ∃ w, encodeCodeword s.params.familyTable s.inst true = some w := ⟨rfl, rfl, rfl, rfl, by decide, _, rfl⟩
theorem witness_SwitchOnTransmitsItsWaveform :
    let s := about (.write 0x000 0x00000010) instB
    s.turns = [] ∧ s.inst.busy = false ∧ s.inst.out.hung = false ∧ s.inst.out.host = .write 0x000 0x00000010 :: []
      ∧ s.inst.variant ≠ .none ∧ ∃ w, encodeCodeword s.params.familyTable s.inst true = some w :=
  ⟨rfl, rfl, rfl, rfl, by decide, _, rfl⟩

theorem witness_DelayOperandsAreExactProducts : 71 ∈ [1, 2, 3, 4, 6, 9, 10, 11, 31, 71] ∧ 1 ∈ [1, 2, 3, 4, 6, 9, 10, 11, 31, 71] := by decide
theorem witness_PulsePairEvents : (snap 17 350 1 1).pin.toInt ≠ -1 ∧ (snap 0xFFFFFFFF 350 1 1).pin.toInt = -1 := by decide
theorem witness_DisabledPinKeepsDelaysOnly : (snap 0xFFFFFFFF 350 1 1).pin = 0xFFFFFFFF := rfl
theorem witness_UnsupportedProtocolIsSilent :
    let c := snap 17 350 0 2
    c.protocol ≠ 1 ∧ c.protocol ≠ 2 ∧ c.protocol ≠ 3 := by decide
theorem witness_UnsupportedProtocolIsSilent_row : protocolRow (snap 17 350 3 2).protocol = some ⟨(4, 11), (9, 6), (1, 71)⟩ := by decide
theorem witness_SymbolPulsesAndFrames :
    (snap 17 350 1 0).count ≤ 0 ∧ 0 < (snap 17 350 1 1).count ∧ (0x66 : Byte) ≠ 0x30 ∧ (0x66 : Byte) ≠ 0x31 ∧ (0x66 : Byte) ≠ 0x46 := by decide
theorem witness_OtherBytesAreSkipped : (ascii "x0").filter (fun b => b == 0x30 || b == 0x31) ≠ [] := by decide
theorem witness_SendEventCounts :
    let c := snap 17 350 1 2
    4 = (if c.pin.toInt = -1 then 2 else 4) ∧ 1 = (if c.protocol = 1 ∨ c.protocol = 2 ∨ c.protocol = 3 then 1 else 0) ∧ ascii "x" ≠ [] := by
  decide
theorem witness_SwitchWaveformDuration :
    isCodeword (ascii "0FFF0FFFFFFF") ∧ 0 < inst0.repeatCount.toInt
      ∧ ∀ p ∈ ([0, 1, 2, 3, 4] : List Int), ({ inst0 with protocol := BitVec.ofInt 32 p } : Instance).protocol.toInt = p := by decide
theorem witness_BytesBecomeBitsMsbFirst : ([0xA5] : List Byte)[0]? = some 0xA5 := rfl

/-- A string at index 0 and an unterminated run at the end of the buffer. -/
theorem witness_StringSendsQueueTheString :
    let s := plat { inst0 with dbuf := cells 0 [0x30, 0x00] }
    s.inst.arg0.toNat + 1 < s.params.dbufSize ∧ (∀ k, k < 1 → s.inst.dbufByte (s.inst.arg0.toNat + k) ≠ 0)
      ∧ s.inst.dbufByte (s.inst.arg0.toNat + 1) = 0 := by decide
/-- The empty string in the buffer's last byte. -/
theorem witness_StringSendsQueueTheString_last :
    let s := plat { inst0 with arg0 := 255, dbuf := cells 255 [0x00] }
    s.inst.arg0.toNat + 0 < s.params.dbufSize ∧ s.inst.dbufByte (s.inst.arg0.toNat + 0) = 0 := by decide
theorem witness_StringSendsQueueTheString_range :
    let s := plat { inst0 with arg0 := 254, dbuf := cells 254 [0x30, 0x31] }
    ∀ k, s.inst.arg0.toNat ≤ k → k < s.params.dbufSize → s.inst.dbufByte k ≠ 0 := by
  intro s k h1 h2
  have e1 : s.inst.arg0.toNat = 254 := rfl
  have e2 : s.params.dbufSize = 256 := rfl
  have hk : k = 254 ∨ k = 255 := by omega
  rcases hk with rfl | rfl <;> decide

theorem witness_SendBytesQueuesTheBytes :
    let s := plat { inst0 with arg0 := 252, arg1 := 4 }
    let t := plat { inst0 with arg0 := 252, arg1 := 5 }
    let u := plat { inst0 with arg1 := 0 }
    (0 < s.inst.arg1.toInt ∧ (s.inst.arg0.toNat : Int) + s.inst.arg1.toInt ≤ s.params.dbufSize)
      ∧ (0 < t.inst.arg1.toInt ∧ (t.params.dbufSize : Int) < t.inst.arg0.toNat + t.inst.arg1.toInt) ∧ u.inst.arg1.toInt ≤ 0 := by decide

theorem witness_CommandsChangeOnlyTheirRegisters :
    ∃ t u, exec .setProtocol (plat inst0) = .next t ∧ exec .initB (plat instB) = .next u := ⟨_, _, rfl, rfl⟩
theorem witness_ErringCommandHasNoOtherEffect :
    ∃ t, exec .switchOn (plat inst0) = .next t ∧ (plat inst0).inst.err = false ∧ t.inst.err = true := ⟨_, rfl, rfl, rfl⟩
theorem witness_RecordedErrorStaysUntilPowerOn :
    let s := about (.write 0x000 0x00000010) { inst0 with err := true, errCode := .badAccess }
    nextTurn s = .host ∧ s.inst.err = true ∧ ∃ t, step s = .next t := ⟨rfl, rfl, _, rfl⟩
theorem witness_CommandLineWritesOperandsThenRuns :
    let s := plat (hosted (expandLine inst0 (.command .initC [.char 0x61, .int 1, .int (-1)])) inst0)
    (AsmLine.command .initC [.char 0x61, .int 1, .int (-1)]).wf s.params.dbufSize = true ∧ s.turns = [] ∧ s.inst.busy = false
      ∧ s.inst.out.host = expandLine s.inst (.command .initC [.char 0x61, .int 1, .int (-1)]) ++ [] := by decide

/-- A directive over two words, up to the buffer's last byte, and one with a NUL. -/
theorem witness_DirectiveLineStoresItsBytes :
    let i := { inst0 with dbuf := cells 248 [1, 2, 3, 4, 5, 6, 7, 8] }
    let s := plat (hosted (expandLine i (.dbufb 251 [9, 9, 9, 9, 9])) i)
    let u := plat (hosted (expandLine i (.dbuf 250 [0x30])) i)
    s.params.wf = true ∧ (AsmLine.dbufb 251 [9, 9, 9, 9, 9]).wf s.params.dbufSize = true ∧ s.turns = [] ∧ s.inst.busy = false
      ∧ s.inst.out.host = expandLine s.inst (.dbufb 251 [9, 9, 9, 9, 9]) ++ []
      ∧ (AsmLine.dbuf 250 [0x30]).wf u.params.dbufSize = true
      ∧ u.inst.out.host = expandLine u.inst (.dbuf 250 [0x30]) ++ [] := by decide

theorem witness_StepKeepsStateLegal : (plat pending).wf ∧ ∃ t, step (plat pending) = .next t := ⟨by decide, _, rfl⟩
theorem witness_SingleInstanceBringsUpAtMostOnce : (plat pending).singleBringUp ∧ ∃ t, step (plat pending) = .next t :=
  ⟨by decide, _, rfl⟩

end Sys2Proof.Machine.Tests
end

section
/-! The state at power-on reset (10_state.md R49; 70_reset_and_hazards.md R500). -/

namespace Sys2Proof.Machine

/-- The values of R49 do not depend on which draw of unspecified data buffer bytes the instance holds (log 4). -/
theorem Instance.reset_atReset (epoch : Nat) : (Instance.reset epoch).atReset :=
  ⟨rfl, rfl, rfl, rfl, rfl, rfl, rfl, rfl, rfl, rfl, rfl, rfl, rfl, rfl, rfl, rfl, rfl, rfl⟩

/-- With Q empty and AWAIT = 0 an instance is idle (R34, R48). -/
theorem Instance.not_busy_of_atReset {i : Instance} (h : i.atReset) : i.busy = false := by
  obtain ⟨-, -, -, -, -, -, -, -, -, -, -, -, -, -, -, -, hqueue, hawait⟩ := h
  simp [Instance.busy, hqueue, hawait]

/-- Every field of STATUS is 0 at the values of R49 while LATCH = 0 (R33, R36). -/
theorem statusWord_of_atReset {i : Instance} (h : i.atReset) : statusWord false i = 0 := by
  have hbusy : i.busy = false := Instance.not_busy_of_atReset h
  obtain ⟨-, -, -, hcw, herr, hcode, hvariant, -⟩ := h
  rw [statusWord, hbusy, hcw, herr, hcode, hvariant]
  rfl

/-- Whatever `N_INSTANCES` is (00_scope.md R7), the platform holds freshly reset instances and no others. -/
theorem eq_reset_of_mem_reset_instances {i : Instance} (h : i ∈ State.reset.instances) :
    ∃ epoch, i = Instance.reset epoch := by
  have hmem : i ∈ Instance.reset 0 :: (List.range' 1 (Config.nInstances - 1)).map Instance.reset := h
  rcases List.mem_cons.1 hmem with hselected | hafter
  · exact ⟨0, hselected⟩
  · obtain ⟨epoch, -, hepoch⟩ := List.mem_map.1 hafter
    exact ⟨epoch, hepoch.symm⟩

/-- Settles O22: every instance of the platform is a freshly reset one, which has the values of R49 and so a STATUS of 0. -/
theorem resetValues : Obligations.ResetValues := by
  refine ⟨rfl, fun i hi => ?_⟩
  obtain ⟨epoch, rfl⟩ := eq_reset_of_mem_reset_instances hi
  have hreset : (Instance.reset epoch).atReset := Instance.reset_atReset epoch
  exact ⟨hreset, statusWord_of_atReset hreset⟩

end Sys2Proof.Machine
end

section
/-! The host's turn, one equation per access (20_memory.md R81 to R84, R90). -/

namespace Sys2Proof.Machine

/-! ### The step in which the host moves -/

theorem step_of_nextTurn_host {s : State} (hturn : nextTurn s = .host) : step s = hostTurn s.turnUsed := by
  rw [step, hturn]
  rfl

/-- A read is answered whether BUSY is 0 or 1 (R90). -/
theorem step_read {s : State} {offset : Nat} {rest : List Access} (hoffset : offset < 0x1000)
    (habout : s.hostAbout (.read offset) rest) : step s = .next (mmioRead offset (s.hostMoved rest)) := by
  obtain ⟨hturn, hhost⟩ := habout
  rw [step_of_nextTurn_host hturn, hostTurn, turnUsed_inst, hhost]
  exact if_pos hoffset

/-- A held write leaves the host where it is (R90). -/
theorem step_heldWrite {s : State} {offset : Nat} {v : Word} {rest : List Access} (hoffset : offset < 0x1000)
    (habout : s.hostAbout (.write offset v) rest) (hbusy : s.inst.busy = true) : step s = .next s.turnUsed := by
  obtain ⟨hturn, hhost⟩ := habout
  rw [step_of_nextTurn_host hturn, hostTurn, turnUsed_inst, hhost]
  simp [hbusy, Nat.not_le.2 hoffset]

/-- A write to CMD runs its word once BUSY = 0 (R90; 30_encoding.md R121). -/
theorem step_cmdWrite {s : State} {v : Word} {rest : List Access} (habout : s.hostAbout (.write 0x000 v) rest)
    (hbusy : s.inst.busy = false) : step s = runCommand v (s.hostMoved rest) := by
  obtain ⟨hturn, hhost⟩ := habout
  have hcmd : targetOf s.params.dbufSize 0x000 = .cmd := rfl
  rw [step_of_nextTurn_host hturn, hostTurn, turnUsed_inst, hhost]
  simp only [turnUsed_params, hbusy, hcmd]
  rfl

/-- A write to any other place is performed once BUSY = 0 (R90). -/
theorem step_write {s : State} {offset : Nat} {v : Word} {rest : List Access} (hoffset : offset < 0x1000)
    (hcmd : targetOf s.params.dbufSize offset ≠ .cmd) (habout : s.hostAbout (.write offset v) rest)
    (hbusy : s.inst.busy = false) : step s = .next (mmioWrite offset v (s.hostMoved rest)) := by
  obtain ⟨hturn, hhost⟩ := habout
  have hidle : ¬ s.inst.busy = true := by simp [hbusy]
  rw [step_of_nextTurn_host hturn, hostTurn, turnUsed_inst, hhost]
  exact (if_neg (Nat.not_le.2 hoffset)).trans ((if_neg hidle).trans (if_neg hcmd))

/-- A host that is not about to write CMD does nothing, reads, or writes a word to another place; hostTurn_cases does not
say at which offset a command runs. -/
theorem hostTurn_cases_of_not_cmdWrite {s t : State} (h : hostTurn s = .next t)
    (hcmd : ∀ v rest, s.inst.out.host ≠ .write 0x000 v :: rest) :
    t = s ∨ (∃ offset rest, t = mmioRead offset (s.withHost rest))
      ∨ ∃ offset v rest, t = mmioWrite offset v (s.withHost rest) := by
  unfold hostTurn at h
  split at h
  · cases h
    exact .inl rfl
  · next offset rest _ =>
    split at h <;> cases h
    exact .inr (.inl ⟨offset, rest, rfl⟩)
  · next offset v rest hhost =>
    have hne : offset ≠ 0x000 := by
      rintro rfl
      exact hcmd v rest hhost
    rw [if_neg (targetOf_ne_cmd hne)] at h
    split at h
    · cases h
    split at h <;> cases h
    · exact .inl rfl
    · exact .inr (.inr ⟨offset, v, rest, rfl⟩)

/-! ### Places that take no write -/

/-- The places a host write raises BAD_ACCESS at: read-only registers, reserved and misaligned offsets (R81, R83, R84). -/
def Target.takesNoWrite : Target → Bool
  | .cmd | .arg0 | .arg1 | .arg2 | .dbuf _ => false
  | _ => true

theorem afterWrite_of_takesNoWrite {t : Target} (h : t.takesNoWrite = true) (v : Word) (i : Instance) :
    afterWrite v i t = raiseErr .badAccess i := by
  cases t
  case cmd | arg0 | arg1 | arg2 | dbuf => cases h
  all_goals rfl

/-- A write that is not accepted changes ERR and ERRCODE and nothing else (60_exceptions.md R406, R407). -/
theorem step_rejectedWrite {s : State} {offset : Nat} {v : Word} {rest : List Access} (hoffset : offset < 0x1000)
    (htarget : (targetOf s.params.dbufSize offset).takesNoWrite = true) (habout : s.hostAbout (.write offset v) rest)
    (hbusy : s.inst.busy = false) :
    step s = .next ((s.hostMoved rest).withInst (raiseErr .badAccess (s.hostMoved rest).inst)) := by
  have hcmd : targetOf s.params.dbufSize offset ≠ .cmd := by
    intro heq
    rw [heq] at htarget
    cases htarget
  rw [step_write hoffset hcmd habout hbusy, mmioWrite, hostMoved_params, afterWrite_of_takesNoWrite htarget]

/-- The offsets of the read-only registers (R82, R84). -/
abbrev readOnlyOffsets : List Nat :=
  [0x004, 0x020, 0x024, 0x028, 0x02C, 0x030, 0x034, 0x038, 0x040, 0x044, 0x048, 0x050, 0x054, 0x058]

theorem lt_window_of_mem_readOnlyOffsets : ∀ offset ∈ readOnlyOffsets, offset < 0x1000 := by decide

theorem targetOf_takesNoWrite_of_mem_readOnlyOffsets {size offset : Nat} (h : offset ∈ readOnlyOffsets) :
    (targetOf size offset).takesNoWrite = true := by
  simp only [readOnlyOffsets, List.mem_cons, List.not_mem_nil, or_false] at h
  rcases h with rfl | rfl | rfl | rfl | rfl | rfl | rfl | rfl | rfl | rfl | rfl | rfl | rfl | rfl
  all_goals rfl

/-! ### The configuration registers -/

/-- Two instances agree on the registers that only commands change: VARIANT, the configuration, the parameters and the
codeword (R84; 10_state.md R35, R38 to R45). -/
abbrev Instance.SameConfig (j i : Instance) : Prop :=
  j.variant = i.variant ∧ j.pin = i.pin ∧ j.pulse = i.pulse ∧ j.repeatCount = i.repeatCount ∧ j.protocol = i.protocol
    ∧ j.paramCh = i.paramCh ∧ j.paramN0 = i.paramN0 ∧ j.paramN1 = i.paramN1 ∧ j.paramA = i.paramA
    ∧ j.cw = i.cw ∧ j.cwValid = i.cwValid

theorem sameConfig_refl (i : Instance) : i.SameConfig i := by simp only [Instance.SameConfig, and_self]

theorem raiseErr_sameConfig (c : ErrCode) (i : Instance) : (raiseErr c i).SameConfig i := sameConfig_refl i

theorem mmioRead_sameConfig (offset : Nat) (s : State) : (mmioRead offset s).inst.SameConfig s.inst := by
  have hafter : (afterRead s.inst (targetOf s.params.dbufSize offset)).SameConfig s.inst := by
    rcases afterRead_cases s.inst (targetOf s.params.dbufSize offset) with h | ⟨-, h⟩ <;> rw [h]
    · exact sameConfig_refl s.inst
    · exact raiseErr_sameConfig .badAccess s.inst
  exact hafter

theorem mmioWrite_sameConfig (offset : Nat) (v : Word) (s : State) : (mmioWrite offset v s).inst.SameConfig s.inst := by
  rw [mmioWrite, withInst_inst]
  rcases afterWrite_cases v s.inst (targetOf s.params.dbufSize offset) with
    ⟨-, h⟩ | ⟨-, h⟩ | ⟨-, h⟩ | ⟨-, h⟩ | ⟨k, -, h⟩ | h <;> rw [h]
  case inr.inr.inr.inr.inr => exact raiseErr_sameConfig .badAccess s.inst
  all_goals exact sameConfig_refl s.inst

/-! ### The statements -/

/-- Settles O6: the four step equations of the host's turn, the read's answer read off mmioRead. -/
theorem writesHeldExactlyWhileBusy : Obligations.WritesHeldExactlyWhileBusy := by
  refine ⟨fun s offset v rest hoffset habout => ⟨step_heldWrite hoffset habout, ?_, ?_⟩,
    fun s offset rest hoffset habout => ⟨_, step_read hoffset habout, ?_⟩⟩
  · rintro hbusy rfl
    exact step_cmdWrite habout hbusy
  · intro hbusy hne
    exact step_write hoffset (targetOf_ne_cmd hne) habout hbusy
  · rw [mmioRead, readTarget_hostMoved, hostMoved_params]
    rcases afterRead_cases (s.hostMoved rest).inst (targetOf s.params.dbufSize offset) with h | ⟨-, h⟩ <;> rw [h] <;>
      exact ⟨rfl, rfl⟩

/-- Settles O8: a reserved offset leads to no register, whatever the size of the data buffer. -/
theorem reservedOffsetsReadZeroAndRejectWrites : Obligations.ReservedOffsetsReadZeroAndRejectWrites := by
  intro s offset rest hreserved
  have htarget : targetOf s.params.dbufSize offset = .reserved := targetOf_reserved hreserved
  obtain ⟨-, hoffset, -⟩ := hreserved
  refine ⟨fun habout => ?_, fun v habout hbusy => ?_⟩
  · rw [step_read hoffset habout, mmioRead, hostMoved_params, htarget]
    rfl
  · exact step_rejectedWrite hoffset (by rw [htarget]; rfl) habout hbusy

/-- Settles O9: every read-only offset leads to a place that takes no write, and of the host's accesses only a CMD write
reaches the configuration. -/
theorem readOnlyRegistersRejectWrites : Obligations.ReadOnlyRegistersRejectWrites := by
  refine ⟨fun s offset v rest hmem habout hbusy => ?_, fun s t hstep hturn hcmd => ?_⟩
  · exact step_rejectedWrite (lt_window_of_mem_readOnlyOffsets offset hmem)
      (targetOf_takesNoWrite_of_mem_readOnlyOffsets hmem) habout hbusy
  · rw [step_of_nextTurn_host hturn] at hstep
    rcases hostTurn_cases_of_not_cmdWrite hstep hcmd with rfl | ⟨offset, rest, rfl⟩ | ⟨offset, v, rest, rfl⟩
    · exact sameConfig_refl s.inst
    · exact mmioRead_sameConfig offset (s.turnUsed.withHost rest)
    · exact mmioWrite_sameConfig offset v (s.turnUsed.withHost rest)

/-- Settles O7: a misaligned offset is a place of its own, which reads as 0 and takes no write. -/
theorem misalignedAccessRaisesBadAccess : Obligations.MisalignedAccessRaisesBadAccess := by
  intro s offset rest hoffset hmisaligned
  have htarget : targetOf s.params.dbufSize offset = .misaligned := targetOf_misaligned hmisaligned
  refine ⟨fun habout => ?_, fun v habout hbusy => ?_⟩
  · rw [step_read hoffset habout, mmioRead, hostMoved_params, htarget]
    rfl
  · exact step_rejectedWrite hoffset (by rw [htarget]; rfl) habout hbusy

end Sys2Proof.Machine
end

section
/-! The byte lanes of the words that reads of the data buffer, PARAM_A and CW return (20_memory.md R82, R85). -/

namespace Sys2Proof.Machine

/-! ### Lanes of packed words -/

/-- laneOf_packWord with the lane as a number. -/
theorem laneOf_packWord_apply (f : Nat → Byte) {j : Nat} (hj : j < 4) :
    laneOf (packWord (f 0) (f 1) (f 2) (f 3)) j = f j := by
  obtain ⟨h0, h1, h2, h3⟩ := laneOf_packWord (f 0) (f 1) (f 2) (f 3)
  match j, hj with
  | 0, _ => exact h0
  | 1, _ => exact h1
  | 2, _ => exact h2
  | 3, _ => exact h3

theorem laneOf_wordAt (l : List Byte) (k : Nat) {j : Nat} (hj : j < 4) : laneOf (wordAt l k) j = byteAt l (k + j) :=
  laneOf_packWord_apply (fun m => byteAt l (k + m)) hj

/-- Byte j of an array is lane j % 4 of its word j / 4. -/
theorem laneOf_wordAt_div_mod {l : List Byte} {j : Nat} (h : j < l.length) :
    laneOf (wordAt l (4 * (j / 4))) (j % 4) = l[j] := by
  rw [laneOf_wordAt l _ (Nat.mod_lt j (by decide)), Nat.div_add_mod]
  exact List.getD_eq_getElem l 0 h

theorem packWord_upperHalf_zero (b0 b1 : Byte) : (packWord b0 b1 0 0).extractLsb' 16 16 = 0 := by
  apply BitVec.eq_of_getLsbD_eq
  intro j hj
  have h0 : ¬ 16 + j < 8 := by omega
  have h1 : ¬ 16 + j - 8 < 8 := by omega
  simp only [packWord, BitVec.getLsbD_extractLsb', BitVec.getLsbD_append, if_neg h0, if_neg h1]
  simp

/-! ### Words of the map -/

theorem laneOf_readTarget_dbuf (latch : Bool) (i : Instance) (k : Nat) {j : Nat} (hj : j < 4) :
    laneOf (readTarget latch i (.dbuf k)) j = i.dbufByte (k + j) :=
  laneOf_packWord_apply (fun m => i.dbufByte (k + m)) hj

/-- PARAM_A2 reads as a word whose upper two bytes the ten-byte array does not have, and a missing byte is 0 (log 19). -/
theorem readTarget_paramA {i : Instance} (hlen : i.paramA.length = 10) (latch : Bool) (size : Nat) {q : Nat} (hq : q < 3) :
    readTarget latch i (targetOf size (0x040 + 4 * q)) = wordAt i.paramA (4 * q) := by
  match q, hq with
  | 0, _ => rfl
  | 1, _ => rfl
  | 2, _ =>
    have h10 : byteAt i.paramA 10 = 0 := List.getD_eq_default _ _ hlen.le
    have h11 : byteAt i.paramA 11 = 0 := List.getD_eq_default _ _ (by omega)
    rw [wordAt, h10, h11]
    rfl

theorem readTarget_cw (latch : Bool) (i : Instance) (size : Nat) {q : Nat} (hq : q < 3) :
    readTarget latch i (targetOf size (0x050 + 4 * q)) = wordAt i.cw (4 * q) := by
  match q, hq with
  | 0, _ => rfl
  | 1, _ => rfl
  | 2, _ => rfl

/-! ### The statement -/

/-- Settles O13: each read returns a packed word, and lane j of a packed word is its byte j. -/
theorem wordReadsPackBytesLittleEndian : Obligations.WordReadsPackBytesLittleEndian := by
  intro s _
  refine ⟨fun k j hk hj => ?_, fun hlen j h => ?_, ?_, fun hlen j h => ?_⟩
  · rw [targetOf_dbuf hk]
    exact laneOf_readTarget_dbuf s.latch s.inst (4 * k) hj
  · rw [readTarget_paramA hlen s.latch s.params.dbufSize (by omega)]
    exact laneOf_wordAt_div_mod h
  · exact packWord_upperHalf_zero _ _
  · rw [readTarget_cw s.latch s.inst s.params.dbufSize (by omega)]
    exact laneOf_wordAt_div_mod h

end Sys2Proof.Machine
end

section
/-! The command words: decoding inverts encoding, and a word outside the table only records an error (30_encoding.md R121, R124, R125). -/

namespace Sys2Proof.Machine

/-! ### Opcodes and fields -/

/-- The per-command statements of the table, as one statement about every command. -/
theorem commandWord_statement (i : Instr) : Laws.CommandWord.Statement i := by
  cases i with
  | initA => exact Laws.CommandWord.initA
  | initB => exact Laws.CommandWord.initB
  | initC => exact Laws.CommandWord.initC
  | initD => exact Laws.CommandWord.initD
  | txInit => exact Laws.CommandWord.txInit
  | enableTransmit => exact Laws.CommandWord.enableTransmit
  | setPulseLength => exact Laws.CommandWord.setPulseLength
  | setRepeatTransmit => exact Laws.CommandWord.setRepeatTransmit
  | setProtocol => exact Laws.CommandWord.setProtocol
  | switchOn => exact Laws.CommandWord.switchOn
  | switchOff => exact Laws.CommandWord.switchOff
  | encodeOn => exact Laws.CommandWord.encodeOn
  | encodeOff => exact Laws.CommandWord.encodeOff
  | sendTristate => exact Laws.CommandWord.sendTristate
  | sendBinaryString => exact Laws.CommandWord.sendBinaryString
  | sendBytes => exact Laws.CommandWord.sendBytes

/-- Each row of decodeOp holds the opcode of its command. -/
theorem opcode_of_decodeOp_eq_some {op : Byte} {i : Instr} (h : decodeOp op = some i) : op = opcode i := by
  unfold decodeOp at h
  split at h <;> cases h
  all_goals rfl

/-- A word with RSV = 0 is its OP field, zero-extended (R121). -/
theorem eq_zeroExtend_of_reservedBits_zero {w : Word} (h : w.extractLsb' 8 24 = 0) :
    w = (w.extractLsb' 0 8).zeroExtend 32 :=
  calc w = w.extractLsb' 8 24 ++ w.extractLsb' 0 8 := (BitVec.extractLsb'_append_extractLsb' (w := 24) (len := 8)).symm
    _ = 0#24 ++ w.extractLsb' 0 8 := by rw [h]; rfl
    _ = (w.extractLsb' 0 8).zeroExtend 32 := (BitVec.setWidth_eq_append (by decide)).symm

/-! ### Decoding -/

/-- The two checks of R121, in the decoder's order. -/
theorem decode_eq_ok_iff {w : Word} {i : Instr} :
    decode w = .ok i ↔ w.extractLsb' 8 24 = 0 ∧ decodeOp (w.extractLsb' 0 8) = some i := by
  unfold decode
  by_cases hrsv : w.extractLsb' 8 24 = 0
  · rw [if_neg (not_not.2 hrsv)]
    cases decodeOp (w.extractLsb' 0 8) <;> simp [hrsv]
  · rw [if_pos hrsv]
    exact ⟨nofun, fun ⟨hzero, _⟩ => absurd hzero hrsv⟩

theorem decode_encode (i : Instr) : decode (encode i) = .ok i := by
  obtain ⟨-, hrsv, hop⟩ := commandWord_statement i
  exact decode_eq_ok_iff.2 ⟨hrsv, hop⟩

theorem eq_encode_of_decode_eq_ok {w : Word} {i : Instr} (h : decode w = .ok i) : w = encode i := by
  obtain ⟨hrsv, hop⟩ := decode_eq_ok_iff.1 h
  rw [encode, ← opcode_of_decodeOp_eq_some hop]
  exact eq_zeroExtend_of_reservedBits_zero hrsv

theorem decode_eq_ok_iff_eq_encode (w : Word) (i : Instr) : decode w = .ok i ↔ w = encode i :=
  ⟨eq_encode_of_decode_eq_ok, fun h => h ▸ decode_encode i⟩

/-! ### The table -/

theorem map_encode_allCommands : allCommands.map encode =
    [0x01, 0x02, 0x03, 0x04, 0x05, 0x08, 0x09, 0x0A, 0x0B, 0x10, 0x11, 0x12, 0x13, 0x20, 0x21, 0x22] := rfl

theorem mem_allCommands (i : Instr) : i ∈ allCommands := by cases i <;> decide

theorem encode_toNat_mem_table (i : Instr) :
    (encode i).toNat ∈ [0x01, 0x02, 0x03, 0x04, 0x05, 0x08, 0x09, 0x0A, 0x0B, 0x10, 0x11, 0x12, 0x13, 0x20, 0x21, 0x22] := by
  have hword : encode i ∈ allCommands.map encode := List.mem_map_of_mem (mem_allCommands i)
  rw [map_encode_allCommands] at hword
  exact List.mem_map_of_mem (f := BitVec.toNat) hword

/-! ### Reserved words -/

/-- A word that is no command's runs none: it raises ILLEGAL_CMD, by whichever check it fails (R121, R125). -/
theorem runCommand_of_forall_ne_encode {w : Word} (h : ∀ i, w ≠ encode i) (s : State) :
    runCommand w s = .next (s.withInst (raiseErr .illegalCmd s.inst)) := by
  unfold runCommand
  split
  next i hdecode => exact absurd (eq_encode_of_decode_eq_ok hdecode) (h i)
  next => rfl

/-! ### The statements -/

/-- Settles O2: a decoded word has RSV = 0 and its command's opcode, so it is that command's word, and each command's word
decodes to it; the lists are read off the table. -/
theorem wordSelectsCommandExactlyWhenEncoded : Obligations.WordSelectsCommandExactlyWhenEncoded :=
  ⟨decode_eq_ok_iff_eq_encode, map_encode_allCommands, rfl, rfl, rfl, rfl⟩

/-- Settles O3: a word outside the table is no command's, so the write that BUSY = 0 lets through only raises the error. -/
theorem reservedWordOnlyRecordsIllegalCmd : Obligations.ReservedWordOnlyRecordsIllegalCmd := by
  intro s w rest habout hbusy hreserved
  have hnone : ∀ i, w ≠ encode i := by
    rintro i rfl
    exact hreserved (encode_toNat_mem_table i)
  rw [step_cmdWrite habout hbusy, runCommand_of_forall_ne_encode hnone]
  rfl

end Sys2Proof.Machine
end

section
/-! Strings over an alphabet, and dec2bin: what the codewords are put together from (40_codeword_encoder.md R201, R212). -/

namespace Sys2Proof.Machine

/-! ### Strings over an alphabet -/

/-- A string of n symbols of an alphabet: the shape of a codeword and of the parts it is put together from (R212). -/
def SymbolString (alphabet : List Byte) (n : Nat) (l : List Byte) : Prop := l.length = n ∧ ∀ c ∈ l, c ∈ alphabet

theorem mem_triAlphabet {c : Byte} : c ∈ triAlphabet ↔ c = 0x30 ∨ c = 0x31 ∨ c = 0x46 := by
  simp only [triAlphabet, List.mem_cons, List.not_mem_nil, or_false]
  rfl

theorem symbolString_triAlphabet_iff {w : List Byte} : SymbolString triAlphabet 12 w ↔ isCodeword w := Iff.rfl

/-- The symbols that variants A, B and C use: '0' and 'F' (R203 to R206). -/
abbrev twoSymbols : List Byte := [ch0, chF]

section
variable {alphabet : List Byte} {n m : Nat} {l k : List Byte}

theorem SymbolString.append (hl : SymbolString alphabet n l) (hk : SymbolString alphabet m k) :
    SymbolString alphabet (n + m) (l ++ k) := by
  obtain ⟨hlength, hsymbols⟩ := hl
  obtain ⟨hlength', hsymbols'⟩ := hk
  exact ⟨by rw [List.length_append, hlength, hlength'], List.forall_mem_append.2 ⟨hsymbols, hsymbols'⟩⟩

theorem SymbolString.set {c : Byte} (hl : SymbolString alphabet n l) (hc : c ∈ alphabet) (j : Nat) :
    SymbolString alphabet n (l.set j c) := by
  obtain ⟨hlength, hsymbols⟩ := hl
  refine ⟨List.length_set.trans hlength, fun b hb => ?_⟩
  rcases List.mem_or_eq_of_mem_set hb with hmem | rfl
  · exact hsymbols b hmem
  · exact hc

theorem SymbolString.map {f : Byte → Byte} (hl : l.length = n) (hf : ∀ c, f c ∈ alphabet) :
    SymbolString alphabet n (l.map f) :=
  ⟨(List.length_map f).trans hl, List.forall_mem_map.2 fun c _ => hf c⟩

theorem SymbolString.mono {larger : List Byte} (hl : SymbolString alphabet n l) (h : alphabet ⊆ larger) :
    SymbolString larger n l := by
  obtain ⟨hlength, hsymbols⟩ := hl
  exact ⟨hlength, fun c hc => h (hsymbols c hc)⟩

/-- A string over '0' and 'F' is one over the tri-state alphabet. -/
theorem SymbolString.isCodeword (hl : SymbolString twoSymbols 12 l) : isCodeword l :=
  symbolString_triAlphabet_iff.1 (hl.mono (by decide))

end

/-! ### Positions in a string of three parts: group, device and the rest -/

section
variable {x y z : List Byte} {n m j : Nat}

theorem getElem?_firstPart (hx : x.length = n) (hj : j < n) : (x ++ y ++ z)[j]? = x[j]? := by
  rw [List.append_assoc, List.getElem?_append_left (by omega)]

theorem getElem?_secondPart (hx : x.length = n) (hy : y.length = m) (hj : j < m) : (x ++ y ++ z)[j + n]? = y[j]? := by
  rw [List.append_assoc, List.getElem?_append_right (by omega), List.getElem?_append_left (by omega)]
  congr 1
  omega

theorem getElem?_thirdPart (hx : x.length = n) (hy : y.length = m) (j : Nat) : (x ++ y ++ z)[n + m + j]? = z[j]? := by
  have hxy : (x ++ y).length = n + m := by rw [List.length_append, hx, hy]
  rw [List.getElem?_append_right (by omega), hxy, Nat.add_sub_cancel_left]

end

/-! ### dec2bin (R201) -/

theorem length_dec2bin {n : Nat} (dec : BitVec n) (fill : Byte) : (dec2bin dec fill).length = n := by
  rw [dec2bin, List.length_map, List.length_range]

theorem getElem?_dec2bin {n j : Nat} (dec : BitVec n) (fill : Byte) (hj : j < n) :
    (dec2bin dec fill)[j]? = some (if dec.getLsbD (n - 1 - j) then ch1 else fill) := by
  rw [dec2bin, List.getElem?_map, List.getElem?_range hj]
  rfl

theorem symbolString_dec2bin {n : Nat} {fill : Byte} (dec : BitVec n) (hfill : fill ∈ triAlphabet) :
    SymbolString triAlphabet n (dec2bin dec fill) := by
  refine ⟨length_dec2bin dec fill, List.forall_mem_map.2 fun j _ => ?_⟩
  split
  · decide
  · exact hfill

/-- Settles O29: the characters by position, a bit of a number being a bit of the natural number it stands for. -/
theorem dec2binWritesBitsMsbFirst : Obligations.Dec2binWritesBitsMsbFirst := by
  refine fun n dec fill => ⟨length_dec2bin dec fill, fun j hj => ?_⟩
  rw [getElem?_dec2bin dec fill hj, BitVec.testBit_toNat]
  rfl

/-- A number with one bit set gives one '1', at the place counted from the most significant bit. -/
theorem getElem?_dec2bin_twoPow {n k j : Nat} (fill : Byte) (hk : k < n) (hj : j < n) :
    (dec2bin (BitVec.twoPow n (n - 1 - k)) fill)[j]? = some (if j = k then ch1 else fill) := by
  have hbit : (BitVec.twoPow n (n - 1 - k)).getLsbD (n - 1 - j) = decide (j = k) := by
    rw [BitVec.getLsbD_twoPow, decide_eq_true (by omega), Bool.true_and]
    exact decide_eq_decide.2 (by omega)
  rw [getElem?_dec2bin _ fill hj, hbit]
  simp only [decide_eq_true_eq]

end Sys2Proof.Machine
end

section
/-! What the encoder of each variant emits, position by position (40_codeword_encoder.md R202 to R207, R212). -/

namespace Sys2Proof.Machine

/-! ### Variant A (R204) -/

/-- The inversion of R204, as encodeA applies it to every character. -/
def invertSymbol (c : Byte) : Byte := if c = ch0 then chF else ch0

theorem encodeA_eq (g d : List Byte) (on : Bool) :
    encodeA g d on = some (g.map invertSymbol ++ d.map invertSymbol ++ if on then [ch0, chF] else [chF, ch0]) := rfl

theorem invertSymbol_mem (c : Byte) : invertSymbol c ∈ twoSymbols := by
  unfold invertSymbol
  split <;> decide

theorem getElem?_map_invertSymbol {l : List Byte} {j : Nat} (hj : j < l.length) :
    (l.map invertSymbol)[j]? = some (if l[j]? = some ch0 then chF else ch0) := by
  simp only [List.getElem?_map, List.getElem?_eq_getElem hj, Option.map_some, Option.some_inj, invertSymbol]

theorem symbolString_encodeA {g d w : List Byte} {on : Bool} (hg : g.length = 5) (hd : d.length = 5)
    (h : encodeA g d on = some w) : SymbolString twoSymbols 12 w := by
  rw [encodeA_eq, Option.some_inj] at h
  subst h
  have hstatus : SymbolString twoSymbols 2 (if on then [ch0, chF] else [chF, ch0]) := by cases on <;> exact ⟨rfl, by decide⟩
  exact ((SymbolString.map hg invertSymbol_mem).append (SymbolString.map hd invertSymbol_mem)).append hstatus

theorem encodeCodeword_of_variant_a {i : Instance} (h : i.variant = .a) (table : List (List Byte)) (on : Bool) :
    encodeCodeword table i on = encodeA (i.paramA.take 5) (i.paramA.drop 5) on := by
  rw [encodeCodeword, h]

/-- Settles O30: the ten inverted characters by position, then the two status symbols. -/
theorem variantAInvertsTenCharacters : Obligations.VariantAInvertsTenCharacters := by
  refine ⟨fun table i on h => encodeCodeword_of_variant_a h table on, fun g d on hg hd => ?_⟩
  have hg' : (g.map invertSymbol).length = 5 := (List.length_map _).trans hg
  have hd' : (d.map invertSymbol).length = 5 := (List.length_map _).trans hd
  obtain ⟨hlength, -⟩ := symbolString_encodeA hg hd (encodeA_eq g d on)
  refine ⟨_, encodeA_eq g d on, hlength, fun j hj => ⟨?_, ?_⟩, ?_, ?_⟩
  · exact (getElem?_firstPart hg' hj).trans (getElem?_map_invertSymbol (by omega))
  · exact (getElem?_secondPart hg' hd' hj).trans (getElem?_map_invertSymbol (by omega))
  · exact (getElem?_thirdPart hg' hd' 0).trans (by cases on <;> rfl)
  · exact (getElem?_thirdPart hg' hd' 1).trans (by cases on <;> rfl)

/-! ### Variant B (R202, R205) -/

/-- The table of R202: the pattern of code n + 1 has its one '0' at place n. -/
theorem getElem?_codeB : ∀ n < 4, ∀ j < 4, (codeB.getD (n + 1) [])[j]? = some (if j = n then ch0 else chF) := by decide

theorem symbolString_codeB : ∀ n < 4, SymbolString twoSymbols 4 (codeB.getD (n + 1) []) := by
  unfold SymbolString
  decide

/-- The status symbol of variants B and C stands last (R205, R206). -/
theorem symbolString_withStatus {l : List Byte} {n : Nat} (hl : SymbolString twoSymbols n l) (on : Bool) :
    SymbolString twoSymbols (n + 1) (l ++ [if on then chF else ch0]) :=
  hl.append (by cases on <;> exact ⟨rfl, by decide⟩)

theorem encodeB_eq_none_iff {a c : Int} {on : Bool} : encodeB a c on = none ↔ a < 1 ∨ 4 < a ∨ c < 1 ∨ 4 < c := by
  unfold encodeB
  split
  next h => exact iff_of_true rfl h
  next h => exact iff_of_false nofun h

theorem encodeB_eq_some {a c : Int} {on : Bool} {w : List Byte} (h : encodeB a c on = some w) :
    ∃ m < 4, ∃ n < 4, a = (m : Nat) + 1 ∧ c = (n : Nat) + 1
      ∧ w = codeB.getD (m + 1) [] ++ codeB.getD (n + 1) [] ++ ([chF, chF, chF] ++ [if on then chF else ch0]) := by
  unfold encodeB at h
  split at h
  · cases h
  next hrange =>
  rw [Option.some_inj, List.append_assoc] at h
  have ha : a.toNat = a.toNat - 1 + 1 := by omega
  have hc : c.toNat = c.toNat - 1 + 1 := by omega
  rw [ha, hc] at h
  exact ⟨a.toNat - 1, by omega, c.toNat - 1, by omega, by omega, by omega, h.symm⟩

theorem symbolString_encodeB {a c : Int} {on : Bool} {w : List Byte} (h : encodeB a c on = some w) :
    SymbolString twoSymbols 12 w := by
  obtain ⟨m, hm, n, hn, -, -, rfl⟩ := encodeB_eq_some h
  exact ((symbolString_codeB m hm).append (symbolString_codeB n hn)).append
    (symbolString_withStatus (n := 3) ⟨rfl, by decide⟩ on)

theorem encodeCodeword_of_variant_b {i : Instance} (h : i.variant = .b) (table : List (List Byte)) (on : Bool) :
    encodeCodeword table i on = encodeB (s32 i.paramN0) (s32 i.paramN1) on := by
  rw [encodeCodeword, h]

/-- Settles O31: both codes select a row of R202, whose one '0' stands at the code's place. -/
theorem variantBOneZeroPerPattern : Obligations.VariantBOneZeroPerPattern := by
  refine ⟨fun table i on h => encodeCodeword_of_variant_b h table on,
    fun a c on => ⟨encodeB_eq_none_iff, fun w h => ?_⟩⟩
  obtain ⟨hlength, -⟩ := symbolString_encodeB h
  obtain ⟨m, hm, n, hn, rfl, rfl, rfl⟩ := encodeB_eq_some h
  obtain ⟨hfirst, -⟩ := symbolString_codeB m hm
  obtain ⟨hsecond, -⟩ := symbolString_codeB n hn
  refine ⟨hlength, fun j hj => ⟨?_, ?_⟩, getElem?_thirdPart hfirst hsecond 0, getElem?_thirdPart hfirst hsecond 1,
    getElem?_thirdPart hfirst hsecond 2, getElem?_thirdPart hfirst hsecond 3⟩
  · rw [getElem?_firstPart hfirst hj, getElem?_codeB m hm j hj, add_sub_cancel_right]
    simp only [Nat.cast_inj]
    rfl
  · rw [getElem?_secondPart hfirst hsecond hj, getElem?_codeB n hn j hj, add_sub_cancel_right]
    simp only [Nat.cast_inj]
    rfl

/-! ### Variant C (R203, R206) -/

/-- The pattern emits the index with the least significant bit first: dec2bin's string read in reverse. -/
theorem getElem?_deviceGroupPattern {j : Nat} (dgi : BitVec 4) (hj : j < 4) :
    (deviceGroupPattern dgi)[j]? = some (if dgi.getLsbD j then chF else ch0) := by
  have hlength : (dec2bin dgi ch0).length = 4 := length_dec2bin dgi ch0
  have hplace : 4 - 1 - (4 - 1 - j) = j := by omega
  rw [deviceGroupPattern, List.getElem?_map, List.getElem?_reverse (by omega), hlength,
    getElem?_dec2bin dgi ch0 (by omega), hplace]
  cases dgi.getLsbD j <;> rfl

theorem symbolString_deviceGroupPattern (dgi : BitVec 4) : SymbolString twoSymbols 4 (deviceGroupPattern dgi) := by
  refine SymbolString.map (by rw [List.length_reverse, length_dec2bin]) fun c => ?_
  split <;> decide

/-- An entry of a legal `FAMILY_TABLE` is a string of four symbols over '0' and 'F' (R203). -/
theorem symbolString_of_mem_familyTable {p : Params} (hp : p.wf = true) {t : List Byte} (ht : t ∈ p.familyTable) :
    SymbolString twoSymbols 4 t := by
  simp only [Params.wf, Params.familyTableWf, Bool.and_eq_true, decide_eq_true_eq, List.all_eq_true, Bool.or_eq_true,
    beq_iff_eq] at hp
  obtain ⟨-, ⟨-, hentries⟩, -⟩ := hp
  obtain ⟨hlength, hsymbols⟩ := hentries t ht
  exact ⟨hlength, fun c hc => by simpa using hsymbols c hc⟩

theorem familyTable_length {p : Params} (hp : p.wf = true) : p.familyTable.length = 16 := by
  simp only [Params.wf, Params.familyTableWf, Bool.and_eq_true, decide_eq_true_eq] at hp
  obtain ⟨-, ⟨hlength, -⟩, -⟩ := hp
  exact hlength

theorem familyTable_getElem?_getD {p : Params} (hp : p.wf = true) {k : Nat} (hk : k < 16) :
    p.familyTable[k]? = some (p.familyTable.getD k []) := by
  have hlt : k < p.familyTable.length := by rwa [familyTable_length hp]
  rw [List.getD_eq_getElem _ _ hlt, List.getElem?_eq_getElem hlt]

theorem encodeC_eq_none_iff {table : List (List Byte)} {f : Byte} {g d : Int} {on : Bool} :
    encodeC table f g d on = none ↔ f.toNat < 0x61 ∨ 0x70 < f.toNat ∨ g < 1 ∨ 4 < g ∨ d < 1 ∨ 4 < d := by
  unfold encodeC
  split
  next h => exact iff_of_true rfl h
  next h => exact iff_of_false nofun h

theorem encodeC_eq_some {table : List (List Byte)} {f : Byte} {g d : Int} {on : Bool} {w : List Byte}
    (h : encodeC table f g d on = some w) :
    f.toNat - 0x61 < 16 ∧ ∃ n : Nat, (d - 1) + (g - 1) * 4 = n
      ∧ w = table.getD (f.toNat - 0x61) [] ++ deviceGroupPattern (BitVec.ofNat 4 n)
        ++ ([ch0, chF, chF] ++ [if on then chF else ch0]) := by
  have hrange := mt encodeC_eq_none_iff.2 (Option.ne_none_iff_exists'.2 ⟨w, h⟩)
  have hindex : (d - 1) + (g - 1) * 4 = (((d - 1) + (g - 1) * 4).toNat : Int) := by omega
  unfold encodeC at h
  split at h
  · cases h
  rw [Option.some_inj, List.append_assoc, hindex, BitVec.ofInt_natCast] at h
  exact ⟨by omega, _, hindex, h.symm⟩

theorem symbolString_encodeC {p : Params} (hp : p.wf = true) {f : Byte} {g d : Int} {on : Bool} {w : List Byte}
    (h : encodeC p.familyTable f g d on = some w) : SymbolString twoSymbols 12 w := by
  obtain ⟨hf, n, -, rfl⟩ := encodeC_eq_some h
  have hfamily := symbolString_of_mem_familyTable hp (List.mem_of_getElem? (familyTable_getElem?_getD hp hf))
  exact (hfamily.append (symbolString_deviceGroupPattern _)).append
    (symbolString_withStatus (n := 3) ⟨rfl, by decide⟩ on)

theorem encodeCodeword_of_variant_c {i : Instance} (h : i.variant = .c) (table : List (List Byte)) (on : Bool) :
    encodeCodeword table i on = encodeC table i.paramCh (s32 i.paramN0) (s32 i.paramN1) on := by
  rw [encodeCodeword, h]

/-- Settles O32: the family's entry of the table, then the index as a natural number, bit j at place j. -/
theorem variantCEmitsIndexLsbFirst : Obligations.VariantCEmitsIndexLsbFirst := by
  refine ⟨fun table i on h => encodeCodeword_of_variant_c h table on,
    fun p f g d on hp => ⟨encodeC_eq_none_iff, fun w h => ?_⟩⟩
  obtain ⟨hlength, -⟩ := symbolString_encodeC hp h
  obtain ⟨hf, n, hindex, rfl⟩ := encodeC_eq_some h
  have hentry := familyTable_getElem?_getD hp hf
  obtain ⟨hfamily, -⟩ := symbolString_of_mem_familyTable hp (List.mem_of_getElem? hentry)
  obtain ⟨hpattern, -⟩ := symbolString_deviceGroupPattern (BitVec.ofNat 4 n)
  refine ⟨hlength, ?_, fun j hj => ?_, getElem?_thirdPart hfamily hpattern 0, getElem?_thirdPart hfamily hpattern 1,
    getElem?_thirdPart hfamily hpattern 2, getElem?_thirdPart hfamily hpattern 3⟩
  · rw [List.append_assoc, List.take_left' hfamily, hentry]
  · rw [getElem?_secondPart hfamily hpattern hj, getElem?_deviceGroupPattern _ hj, hindex, Int.toNat_natCast,
      BitVec.getLsbD_ofNat, decide_eq_true hj, Bool.true_and]
    rfl

/-! ### Variant D (R207) -/

theorem groupValueD_eq_none_iff {gc : Byte} :
    groupValueD gc = none ↔ ¬(0x41 ≤ gc.toNat ∧ gc.toNat ≤ 0x44 ∨ 0x61 ≤ gc.toNat ∧ gc.toNat ≤ 0x64) := by
  simp only [groupValueD, ← BitVec.toNat_inj, BitVec.reduceToNat]
  split_ifs <;> simp only [false_iff, true_iff] <;> omega

/-- Group k of A, B, C, D, in either case, has its one bit k places below the most significant. -/
theorem groupValueD_eq_some {gc : Byte} {gv : BitVec 4} (h : groupValueD gc = some gv) :
    ∃ k < 4, (gc.toNat = 0x41 + k ∨ gc.toNat = 0x61 + k) ∧ gv = BitVec.twoPow 4 (4 - 1 - k) := by
  simp only [groupValueD, ← BitVec.toNat_inj] at h
  split_ifs at h with hA hB hC hD <;> cases h
  · exact ⟨0, by decide, hA, rfl⟩
  · exact ⟨1, by decide, hB, rfl⟩
  · exact ⟨2, by decide, hC, rfl⟩
  · exact ⟨3, by decide, hD, rfl⟩

theorem deviceValueD_eq_none_iff {dv : Int} : deviceValueD dv = none ↔ dv < 1 ∨ 3 < dv := by
  unfold deviceValueD
  split_ifs <;> simp only [false_iff, true_iff] <;> omega

theorem deviceValueD_eq_some {dv : Int} {dn : BitVec 3} (h : deviceValueD dv = some dn) :
    ∃ k < 3, dv = (k : Nat) + 1 ∧ dn = BitVec.twoPow 3 (3 - 1 - k) := by
  unfold deviceValueD at h
  split_ifs at h with h1 h2 h3 <;> cases h
  · exact ⟨0, by decide, h1, rfl⟩
  · exact ⟨1, by decide, h2, rfl⟩
  · exact ⟨2, by decide, h3, rfl⟩

theorem encodeD_eq_none_iff {gc : Byte} {dv : Int} {on : Bool} :
    encodeD gc dv on = none ↔ groupValueD gc = none ∨ deviceValueD dv = none := by
  unfold encodeD
  cases groupValueD gc <;> cases deviceValueD dv <;> simp

theorem encodeD_eq_some {gc : Byte} {dv : Int} {on : Bool} {w : List Byte} (h : encodeD gc dv on = some w) :
    ∃ gv dn, groupValueD gc = some gv ∧ deviceValueD dv = some dn
      ∧ w = (dec2bin gv chF ++ dec2bin dn chF ++ List.replicate 5 ch0).set (if on then 10 else 11) ch1 := by
  unfold encodeD at h
  split at h
  next gv dn hgv hdn =>
    refine ⟨gv, dn, hgv, hdn, ?_⟩
    rw [Option.some_inj] at h
    cases on <;> exact h.symm
  next => cases h

theorem symbolString_encodeD {gc : Byte} {dv : Int} {on : Bool} {w : List Byte} (h : encodeD gc dv on = some w) :
    SymbolString triAlphabet 12 w := by
  obtain ⟨gv, dn, -, -, rfl⟩ := encodeD_eq_some h
  have hF : chF ∈ triAlphabet := by decide
  exact (((symbolString_dec2bin gv hF).append (symbolString_dec2bin dn hF)).append ⟨rfl, by decide⟩).set (by decide) _

theorem encodeCodeword_of_variant_d {i : Instance} (h : i.variant = .d) (table : List (List Byte)) (on : Bool) :
    encodeCodeword table i on = encodeD i.paramCh (s32 i.paramN0) on := by
  rw [encodeCodeword, h]

/-- The five symbols after the codes: '0', but for the marked one. -/
theorem getElem?_stateSymbols {x y : List Byte} (hx : x.length = 4) (hy : y.length = 3) (marked : Nat) {j : Nat}
    (hj7 : 7 ≤ j) (hj12 : j < 12) :
    ((x ++ y ++ List.replicate 5 ch0).set marked ch1)[j]? = some (if j = marked then ch1 else ch0) := by
  have hlength : (x ++ y ++ List.replicate 5 ch0).length = 12 := by
    rw [List.length_append, List.length_append, List.length_replicate, hx, hy]
  by_cases hmarked : marked = j
  · subst hmarked
    rw [List.getElem?_set_self (by omega), if_pos rfl]
  · obtain ⟨i, rfl⟩ : ∃ i, j = 4 + 3 + i := ⟨j - 7, by omega⟩
    rw [List.getElem?_set_ne hmarked, getElem?_thirdPart hx hy, List.getElem?_replicate_of_lt (by omega),
      if_neg (Ne.symm hmarked)]

/-- Settles O33: two one-bit values through dec2bin, then five '0' of which one is overwritten. -/
theorem variantDMarksGroupDeviceAndState : Obligations.VariantDMarksGroupDeviceAndState := by
  refine ⟨fun table i on h => encodeCodeword_of_variant_d h table on, fun gc dv on => ⟨?_, fun w h => ?_⟩⟩
  · rw [encodeD_eq_none_iff, groupValueD_eq_none_iff, deviceValueD_eq_none_iff]
  obtain ⟨hlength, -⟩ := symbolString_encodeD h
  obtain ⟨gv, dn, hgv, hdn, rfl⟩ := encodeD_eq_some h
  obtain ⟨k, hk, hgroup, rfl⟩ := groupValueD_eq_some hgv
  obtain ⟨m, hm, rfl, rfl⟩ := deviceValueD_eq_some hdn
  have hfirst := length_dec2bin (BitVec.twoPow 4 (4 - 1 - k)) chF
  have hsecond := length_dec2bin (BitVec.twoPow 3 (3 - 1 - m)) chF
  have hmarked : 7 ≤ if on then 10 else 11 := by cases on <;> decide
  refine ⟨hlength, fun j hj => ?_, fun j hj => ?_, fun j hj7 hj12 => ?_⟩
  · rw [List.getElem?_set_ne (by omega), getElem?_firstPart hfirst hj, getElem?_dec2bin_twoPow chF hk hj]
    have hplace : j = k ↔ gc.toNat = 0x41 + j ∨ gc.toNat = 0x61 + j := by omega
    simp only [hplace]
    rfl
  · rw [List.getElem?_set_ne (by omega), getElem?_secondPart hfirst hsecond hj, getElem?_dec2bin_twoPow chF hm hj]
    have hplace : j = m ↔ (m : Int) + 1 = (j : Int) + 1 := by omega
    simp only [hplace]
    rfl
  · exact getElem?_stateSymbols hfirst hsecond _ hj7 hj12

/-! ### Codewords (R212, R213) -/

/-- Settles O34: each variant's codeword is put together from strings over the tri-state alphabet. -/
theorem codewordsAreTwelveTristateSymbols : Obligations.CodewordsAreTwelveTristateSymbols := by
  intro p i on w hp hlength h
  have hcodeword : isCodeword w := by
    cases hvariant : i.variant with
    | none =>
      rw [encodeCodeword, hvariant] at h
      cases h
    | a =>
      rw [encodeCodeword_of_variant_a hvariant] at h
      exact (symbolString_encodeA (by simp [hlength]) (by simp [hlength]) h).isCodeword
    | b =>
      rw [encodeCodeword_of_variant_b hvariant] at h
      exact (symbolString_encodeB h).isCodeword
    | c =>
      rw [encodeCodeword_of_variant_c hvariant] at h
      exact (symbolString_encodeC hp h).isCodeword
    | d =>
      rw [encodeCodeword_of_variant_d hvariant] at h
      exact symbolString_triAlphabet_iff.1 (symbolString_encodeD h)
  obtain ⟨htwelve, hsymbols⟩ := hcodeword
  exact ⟨htwelve, fun c hc => mem_triAlphabet.1 (hsymbols c hc)⟩

end Sys2Proof.Machine
end

section
/-! ENCODE_ON and ENCODE_OFF (40_codeword_encoder.md R208 to R211). -/

namespace Sys2Proof.Machine

theorem encodeOnly_of_variant_none {s : State} (h : s.inst.variant = .none) (on : Bool) :
    encodeOnly on s = raiseErr .noVariant s.inst := if_pos h

theorem encodeOnly_of_variant_ne_none {s : State} (h : s.inst.variant ≠ .none) (on : Bool) :
    encodeOnly on s = latchCw (encodeCodeword s.params.familyTable s.inst on) s.inst := if_neg h

theorem exec_encodeOn (s : State) : exec .encodeOn s = .next (s.withInst (encodeOnly true s)) := rfl

theorem exec_encodeOff (s : State) : exec .encodeOff s = .next (s.withInst (encodeOnly false s)) := rfl

theorem exec_encodeOn_of_variant_ne_none {s : State} {r : Option (List Byte)} (h : s.inst.variant ≠ .none)
    (hr : encodeCodeword s.params.familyTable s.inst true = r) :
    exec .encodeOn s = .next (s.withInst (latchCw r s.inst)) := by
  rw [exec_encodeOn, encodeOnly_of_variant_ne_none h, hr]

theorem exec_encodeOff_of_variant_ne_none {s : State} {r : Option (List Byte)} (h : s.inst.variant ≠ .none)
    (hr : encodeCodeword s.params.familyTable s.inst false = r) :
    exec .encodeOff s = .next (s.withInst (latchCw r s.inst)) := by
  rw [exec_encodeOff, encodeOnly_of_variant_ne_none h, hr]

/-- Settles O37: with a variant bound the command only latches the encoder's answer, without one it only raises the error. -/
theorem encodeCommandsLatchTheCodeword : Obligations.EncodeCommandsLatchTheCodeword := by
  refine ⟨rfl, rfl, fun s => ⟨fun hnone i hi => ?_, fun hbound =>
    ⟨fun _ hw => exec_encodeOn_of_variant_ne_none hbound hw, fun _ hw => exec_encodeOff_of_variant_ne_none hbound hw,
      exec_encodeOn_of_variant_ne_none hbound, exec_encodeOff_of_variant_ne_none hbound⟩⟩⟩
  rcases List.mem_pair.1 hi with rfl | rfl
  · rw [exec_encodeOn, encodeOnly_of_variant_none hnone]
    rfl
  · rw [exec_encodeOff, encodeOnly_of_variant_none hnone]
    rfl

end Sys2Proof.Machine
end

section
/-! The pulse transmitter: DELAY operands, pulse pairs, the pairs of a symbol and the repeated frame (41_pulse_transmitter.md
R251 to R259, R264). -/

namespace Sys2Proof.Machine

/-! ### DELAY operands (R264) -/

/-- A 32-bit factor and one below 2^31 have a product in the range of a 64-bit operand, so it does not wrap. -/
theorem toInt_ofInt_toInt_mul (w : Word) {m : Nat} (hm : m < 2 ^ 31) :
    (BitVec.ofInt 64 (w.toInt * m)).toInt = w.toInt * m := by
  have hlower : -2 ^ 31 ≤ w.toInt := w.le_toInt
  have hupper : w.toInt < 2 ^ 31 := w.toInt_lt
  have hm' : (m : Int) ≤ 2 ^ 31 := by omega
  have hproductLower : -2 ^ 31 * 2 ^ 31 ≤ w.toInt * m := by nlinarith
  have hproductUpper : w.toInt * m ≤ 2 ^ 31 * 2 ^ 31 := by nlinarith
  exact BitVec.toInt_ofInt_eq_self (by decide) (by omega) (by omega)

/-- Settles O41: the block's multipliers are at most 71, far below the bound of the product lemma. -/
theorem delayOperandsAreExactProducts : Obligations.DelayOperandsAreExactProducts := by
  intro i m hm
  have hsmall : ∀ m ∈ [1, 2, 3, 4, 6, 9, 10, 11, 31, 71], m < 2 ^ 31 := by decide
  exact ⟨_, rfl, toInt_ofInt_toInt_mul i.pulse (hsmall m hm)⟩

/-! ### Pulse pairs (R251) -/

theorem pulsePair_of_enabled {c : Snapshot} (h : c.pin.toInt ≠ -1) (hi lo : Nat) :
    pulsePair c hi lo = [.write c.pin true, delayUnits c hi, .write c.pin false, delayUnits c lo] := if_pos h

theorem pulsePair_of_disabled {c : Snapshot} (h : c.pin.toInt = -1) (hi lo : Nat) :
    pulsePair c hi lo = [delayUnits c hi, delayUnits c lo] := if_neg (not_not.2 h)

/-- Settles O42: one equation for an enabled pin and one for pin -1. -/
theorem pulsePairEvents : Obligations.PulsePairEvents :=
  fun _ hi lo => ⟨fun h => pulsePair_of_enabled h hi lo, fun h => pulsePair_of_disabled h hi lo⟩

/-! ### The repeated frame and the two sends (R257 to R259) -/

theorem repeatFrame_of_count_nonpos {c : Snapshot} (h : c.count ≤ 0) (body : List Event) : repeatFrame c body = [] := by
  rw [repeatFrame, Int.toNat_of_nonpos h]
  rfl

theorem repeatFrame_of_count_pos {c : Snapshot} (h : 0 < c.count) (body : List Event) :
    repeatFrame c body = body ++ syncPulses c ++ repeatFrame { c with count := c.count - 1 } body := by
  have hcount : c.count.toNat = (c.count - 1).toNat + 1 := by omega
  rw [repeatFrame, hcount, List.replicate_succ, List.flatten_cons]
  rfl

theorem repeatFrame_of_no_sync {c : Snapshot} (h : syncPulses c = []) (body : List Event) :
    repeatFrame c body = (List.replicate c.count.toNat body).flatten := by
  rw [repeatFrame, h, List.append_nil]

theorem sendTri_eq (c : Snapshot) (s : List Byte) : sendTri c s = repeatFrame c (s.map (triPulses c)).flatten := rfl

theorem sendBin_of_ne_nil {s : List Byte} (h : s ≠ []) (c : Snapshot) :
    sendBin c s = repeatFrame c (s.map (binPulses c)).flatten := if_neg h

/-! ### The pairs of a symbol (R255, R256) -/

theorem triPulses_of_other {b : Byte} (h0 : b ≠ ch0) (h1 : b ≠ ch1) (hF : b ≠ chF) (c : Snapshot) : triPulses c b = [] := by
  rw [triPulses, if_neg h0, if_neg h1, if_neg hF]

theorem binPulses_of_other {b : Byte} (h0 : b ≠ ch0) (h1 : b ≠ ch1) (c : Snapshot) : binPulses c b = [] := by
  rw [binPulses, if_neg h0, if_neg h1]

/-- Settles O45: the symbols one by one, then one frame split off the count, which its sync does not depend on. -/
theorem symbolPulsesAndFrames : Obligations.SymbolPulsesAndFrames :=
  fun c => ⟨⟨rfl, rfl, rfl, fun _ h0 h1 hF => triPulses_of_other h0 h1 hF c⟩,
    ⟨rfl, rfl, fun _ h0 h1 => binPulses_of_other h0 h1 c⟩,
    fun body => ⟨fun h => repeatFrame_of_count_nonpos h body, fun h => repeatFrame_of_count_pos h body⟩,
    fun s => ⟨sendTri_eq c s, rfl⟩⟩

/-! ### Protocols (R253, R254) -/

section
variable {c : Snapshot} {m : Multipliers}

theorem bit0Pulses_of_row (h : protocolRow c.protocol = some m) : bit0Pulses c = pulsePair c m.bit0.1 m.bit0.2 := by
  rw [bit0Pulses, h]

theorem bit1Pulses_of_row (h : protocolRow c.protocol = some m) : bit1Pulses c = pulsePair c m.bit1.1 m.bit1.2 := by
  rw [bit1Pulses, h]

theorem syncPulses_of_row (h : protocolRow c.protocol = some m) : syncPulses c = pulsePair c m.sync.1 m.sync.2 := by
  rw [syncPulses, h]

theorem bit0Pulses_of_no_row (h : protocolRow c.protocol = none) : bit0Pulses c = [] := by rw [bit0Pulses, h]

theorem bit1Pulses_of_no_row (h : protocolRow c.protocol = none) : bit1Pulses c = [] := by rw [bit1Pulses, h]

theorem syncPulses_of_no_row (h : protocolRow c.protocol = none) : syncPulses c = [] := by rw [syncPulses, h]

/-- With bit 0 and bit 1 silent no byte of a two-state string has a pulse, symbol or not. -/
theorem binPulses_of_no_row (h : protocolRow c.protocol = none) (b : Byte) : binPulses c b = [] := by
  unfold binPulses
  split
  · exact bit0Pulses_of_no_row h
  split
  · exact bit1Pulses_of_no_row h
  · rfl

theorem sendBin_of_no_row (h : protocolRow c.protocol = none) (s : List Byte) : sendBin c s = [] := by
  have hbody : (s.map (binPulses c)).flatten = [] := by
    simp only [List.flatten_eq_nil_iff, List.forall_mem_map]
    exact fun b _ => binPulses_of_no_row h b
  unfold sendBin
  split
  · rfl
  · rw [hbody, repeatFrame_of_no_sync (syncPulses_of_no_row h), List.flatten_replicate_nil]

end

theorem protocolRow_eq_none {p : Int} (h1 : p ≠ 1) (h2 : p ≠ 2) (h3 : p ≠ 3) : protocolRow p = none := by
  rw [protocolRow, if_neg h1, if_neg h2, if_neg h3]

/-- Settles O44: a number without a row silences the bits and the sync, on which a tri-state symbol's pairs do not depend. -/
theorem unsupportedProtocolIsSilent : Obligations.UnsupportedProtocolIsSilent := by
  refine ⟨⟨rfl, rfl, rfl⟩, fun c m h => ⟨bit0Pulses_of_row h, bit1Pulses_of_row h, syncPulses_of_row h⟩,
    fun c s h1 h2 h3 => ?_⟩
  have hrow : protocolRow c.protocol = none := protocolRow_eq_none h1 h2 h3
  have hsync : syncPulses c = [] := syncPulses_of_no_row hrow
  exact ⟨bit0Pulses_of_no_row hrow, bit1Pulses_of_no_row hrow, hsync, sendBin_of_no_row hrow s,
    (sendTri_eq c s).trans (repeatFrame_of_no_sync hsync _)⟩

end Sys2Proof.Machine
end

section
/-! The send commands: bytes as symbols, strings of the data buffer, and what the commands queue (41_pulse_transmitter.md R260 to
R263; 20_memory.md R91, R92). -/

namespace Sys2Proof.Machine

/-! ### Bytes as symbols (R260) -/

/-- The symbols of a byte are its binary digits as R201 writes them. -/
theorem byteBits_eq_dec2bin (b : Byte) : byteBits b = dec2bin b ch0 := rfl

theorem length_byteBits (b : Byte) : (byteBits b).length = 8 := length_dec2bin b ch0

theorem getElem?_byteBits {j : Nat} (b : Byte) (hj : j < 8) :
    (byteBits b)[j]? = some (if b.toNat.testBit (7 - j) then ch1 else ch0) := by
  rw [byteBits_eq_dec2bin, getElem?_dec2bin b ch0 hj, BitVec.testBit_toNat]

theorem bytesToBits_cons (b : Byte) (bytes : List Byte) : bytesToBits (b :: bytes) = byteBits b ++ bytesToBits bytes := rfl

theorem length_bytesToBits (bytes : List Byte) : (bytesToBits bytes).length = 8 * bytes.length := by
  induction bytes with
  | nil => rfl
  | cons b bytes ih => rw [bytesToBits_cons, List.length_append, length_byteBits, ih, List.length_cons]; omega

theorem getElem?_bytesToBits {bytes : List Byte} {k j : Nat} {b : Byte} (hj : j < 8) (hb : bytes[k]? = some b) :
    (bytesToBits bytes)[8 * k + j]? = (byteBits b)[j]? := by
  induction bytes generalizing k with
  | nil => cases hb
  | cons b' bytes ih =>
    have hlength : (byteBits b').length = 8 := length_byteBits b'
    rw [bytesToBits_cons]
    cases k with
    | zero =>
      cases hb
      rw [List.getElem?_append_left (by omega), Nat.mul_zero, Nat.zero_add]
    | succ k =>
      have hindex : 8 * (k + 1) + j - (byteBits b').length = 8 * k + j := by omega
      rw [List.getElem?_append_right (by omega), hindex]
      exact ih hb

theorem bytesToBits_ne_nil {bytes : List Byte} (h : bytes ≠ []) : bytesToBits bytes ≠ [] := by
  have hpos : 0 < bytes.length := List.length_pos_iff.2 h
  rw [← List.length_pos_iff, length_bytesToBits]
  omega

/-- Settles O49: symbol 8k + j of the string is symbol j of byte k, which is bit 7 - j. -/
theorem bytesBecomeBitsMsbFirst : Obligations.BytesBecomeBitsMsbFirst := fun bytes =>
  ⟨length_bytesToBits bytes, fun _ _ b hj hb => (getElem?_bytesToBits hj hb).trans (getElem?_byteBits b hj)⟩

/-! ### Strings of the data buffer (R92) -/

theorem strAt_of_nul {size start n : Nat} {i : Instance} (hinside : start + n < size)
    (hbytes : ∀ k, k < n → i.dbufByte (start + k) ≠ 0) (hnul : i.dbufByte (start + n) = 0) :
    strAt size i start = some ((List.range n).map fun k => i.dbufByte (start + k)) :=
  scanToNul_of_nul i n start (size - start) (by omega) hbytes hnul

theorem strAt_eq_none {size start : Nat} {i : Instance} (h : ∀ k, start ≤ k → k < size → i.dbufByte k ≠ 0) :
    strAt size i start = none :=
  scanToNul_eq_none i (size - start) start fun k hk => h (start + k) (by omega) (by omega)

/-! ### The string commands (R261, R262) -/

/-- What both string commands do to the instance: `send` gives the waveform of the string at ARG0. -/
def sendStringWith (send : Snapshot → List Byte → List Event) (s : State) : Instance :=
  match strAt s.params.dbufSize s.inst s.inst.arg0.toNat with
  | some text => emit (send (snapshot s.inst) text) s.inst
  | none => raiseErr .dbufRange s.inst

theorem exec_sendTristate (s : State) : exec .sendTristate s = .next (s.withInst (sendStringWith sendTri s)) := rfl

theorem exec_sendBinaryString (s : State) :
    exec .sendBinaryString s = .next (s.withInst (sendStringWith sendBin s)) := rfl

theorem sendStringWith_of_some {s : State} {text : List Byte}
    (h : strAt s.params.dbufSize s.inst s.inst.arg0.toNat = some text) (send : Snapshot → List Byte → List Event) :
    sendStringWith send s = emit (send (snapshot s.inst) text) s.inst := by
  rw [sendStringWith, h]

theorem sendStringWith_of_none {s : State} (h : strAt s.params.dbufSize s.inst s.inst.arg0.toNat = none)
    (send : Snapshot → List Byte → List Event) : sendStringWith send s = raiseErr .dbufRange s.inst := by
  rw [sendStringWith, h]

/-- Settles O50: the two string commands differ in their waveform alone, and what StrAt finds decides the effect of both. -/
theorem stringSendsQueueTheString : Obligations.StringSendsQueueTheString := by
  refine ⟨rfl, rfl, fun s => ⟨fun n hinside hbytes hnul => ?_, fun hnone => ?_⟩⟩
  · have htext := strAt_of_nul hinside hbytes hnul
    rw [exec_sendTristate, exec_sendBinaryString, sendStringWith_of_some htext, sendStringWith_of_some htext]
    exact ⟨rfl, rfl⟩
  · have htext := strAt_eq_none hnone
    rw [exec_sendTristate, exec_sendBinaryString, sendStringWith_of_none htext, sendStringWith_of_none htext]
    exact ⟨rfl, rfl⟩

/-! ### SEND_BYTES (R263) -/

theorem exec_sendBytes_of_nonpos {s : State} (h : s.inst.arg1.toInt ≤ 0) : exec .sendBytes s = .next s := by
  have hbranch : argInt s.inst .arg1 ≤ 0 := h
  rw [exec, execSendBytes, if_pos hbranch]
  rfl

/-- Where all n bytes lie inside the buffer they go out as a two-state send: with 0 < n its string is not empty. -/
theorem exec_sendBytes_of_inside {s : State} {n : Nat} (hcount : s.inst.arg1.toInt = n) (hpos : 0 < n)
    (hinside : s.inst.arg0.toNat + n ≤ s.params.dbufSize) :
    exec .sendBytes s = .next (s.withInst (emit (sendBin (snapshot s.inst)
      (bytesToBits ((List.range n).map fun k => s.inst.dbufByte (s.inst.arg0.toNat + k)))) s.inst)) := by
  have hoperand : argInt s.inst .arg1 = n := hcount
  have hbranch : ¬ (n : Int) ≤ 0 := by omega
  have hread := memRead_eq_some (i := s.inst).2 ⟨hinside, rfl⟩
  have hne : ((List.range n).map fun k => s.inst.dbufByte (s.inst.arg0.toNat + k)) ≠ [] := by
    simp [hpos.ne']
  rw [exec, execSendBytes, hoperand, if_neg hbranch, Int.toNat_natCast, argPtr, argWord, u32, hread,
    sendBin_of_ne_nil (bytesToBits_ne_nil hne)]

theorem exec_sendBytes_of_past_end {s : State} {n : Nat} (hcount : s.inst.arg1.toInt = n) (hpos : 0 < n)
    (hpast : s.params.dbufSize < s.inst.arg0.toNat + n) :
    exec .sendBytes s = .next (s.withInst (raiseErr .dbufRange s.inst)) := by
  have hoperand : argInt s.inst .arg1 = n := hcount
  have hbranch : ¬ (n : Int) ≤ 0 := by omega
  have hread := memRead_eq_none (i := s.inst).2 hpast
  rw [exec, execSendBytes, hoperand, if_neg hbranch, Int.toNat_natCast, argPtr, argWord, u32, hread]

/-- A positive word reads the same signed and unsigned. -/
theorem toInt_eq_toNat_of_pos {w : Word} (h : 0 < w.toInt) : w.toInt = w.toNat :=
  BitVec.toInt_eq_toNat_of_lt (BitVec.toInt_pos_iff.1 h.le)

/-- Settles O51: after the test n ≤ 0 the count is the same number signed and unsigned, and the end of the buffer decides. -/
theorem sendBytesQueuesTheBytes : Obligations.SendBytesQueuesTheBytes := by
  refine ⟨rfl, fun s => ⟨exec_sendBytes_of_nonpos, fun hpos hinside => ?_, fun hpos hpast => ?_⟩⟩
  · have hcount : s.inst.arg1.toInt = s.inst.arg1.toNat := toInt_eq_toNat_of_pos hpos
    exact exec_sendBytes_of_inside hcount (by omega) (by omega)
  · have hcount : s.inst.arg1.toInt = s.inst.arg1.toNat := toInt_eq_toNat_of_pos hpos
    exact exec_sendBytes_of_past_end hcount (by omega) (by omega)

end Sys2Proof.Machine
end

section
/-! The construction commands and the three setters (42_switch_handle.md R300 to R306, R308 to R310). -/

namespace Sys2Proof.Machine

/-! ### INIT_A (R301) -/

/-- Inside the data buffer both reads answer their five bytes, and the two parts are PARAM_A. -/
theorem exec_initA_of_inside {s : State} (hgroup : s.inst.arg0.toNat + 5 ≤ s.params.dbufSize)
    (hdevice : s.inst.arg1.toNat + 5 ≤ s.params.dbufSize) :
    exec .initA s = .next (s.withInst { construct .a s.inst with
      paramA := (List.range 5).map (fun k => s.inst.dbufByte (s.inst.arg0.toNat + k))
        ++ (List.range 5).map (fun k => s.inst.dbufByte (s.inst.arg1.toNat + k)) }) := by
  have hreadGroup : memRead s.params.dbufSize s.inst (argPtr s.inst .arg0) 5 = some _ := memRead_eq_some.2 ⟨hgroup, rfl⟩
  have hreadDevice : memRead s.params.dbufSize s.inst (argPtr s.inst .arg1) 5 = some _ := memRead_eq_some.2 ⟨hdevice, rfl⟩
  rw [exec, execInitA, hreadGroup, hreadDevice]
  rfl

/-- One read without an answer is enough, whatever the other one answers. -/
theorem exec_initA_of_past_end {s : State}
    (h : s.params.dbufSize < s.inst.arg0.toNat + 5 ∨ s.params.dbufSize < s.inst.arg1.toNat + 5) :
    exec .initA s = .next (s.withInst (raiseErr .dbufRange s.inst)) := by
  rcases h with hgroup | hdevice
  · have hread : memRead s.params.dbufSize s.inst (argPtr s.inst .arg0) 5 = none := memRead_eq_none.2 hgroup
    rw [exec, execInitA, hread]
  · have hread : memRead s.params.dbufSize s.inst (argPtr s.inst .arg1) 5 = none := memRead_eq_none.2 hdevice
    rw [exec, execInitA, hread]
    cases memRead s.params.dbufSize s.inst (argPtr s.inst .arg0) 5 <;> rfl

/-- Settles O24: the two ranges decide between the copy and the error. -/
theorem initACopiesTenBytes : Obligations.InitACopiesTenBytes :=
  ⟨rfl, fun _ => ⟨exec_initA_of_past_end, exec_initA_of_inside⟩⟩

/-! ### INIT_B, INIT_C and INIT_D (R302 to R304) -/

theorem exec_initB (s : State) :
    exec .initB s = .next (s.withInst
      { construct .b s.inst with paramN0 := s.inst.arg0, paramN1 := s.inst.arg1 }) := rfl

theorem exec_initC (s : State) :
    exec .initC s = .next (s.withInst
      { construct .c s.inst with
        paramCh := s.inst.arg0.extractLsb' 0 8, paramN0 := s.inst.arg1, paramN1 := s.inst.arg2 }) := rfl

theorem exec_initD (s : State) :
    exec .initD s = .next (s.withInst
      { construct .d s.inst with paramCh := s.inst.arg0.extractLsb' 0 8, paramN0 := s.inst.arg1 }) := rfl

/-- Settles O25: each command is construct (R300) with its operands stored over the cleared parameters. -/
theorem initBcdStoreOperandsUnchecked : Obligations.InitBcdStoreOperandsUnchecked :=
  ⟨rfl, rfl, rfl, fun s => ⟨exec_initB s, exec_initC s, exec_initD s⟩⟩

/-! ### TX_INIT (R306) -/

/-- The events of R307 as a list per condition: INIT while LATCH = 0, CFGOUT for an enabled pin. -/
theorem gpioBind_eq (latch : Bool) (q : Word) :
    gpioBind latch q = (if latch = false then [.init] else []) ++ (if q.toInt ≠ -1 then [.cfgOut q] else []) := by
  rw [gpioBind, s32, ite_not]
  cases latch <;> rfl

/-- `TXINIT_GPIO` guards both bring-up events of TX_INIT. -/
theorem txInitEvents_eq (gpio latch : Bool) (q : Word) :
    (if gpio then gpioBind latch q else []) =
      (if gpio = true ∧ latch = false then [.init] else [])
        ++ (if gpio = true ∧ q.toInt ≠ -1 then [.cfgOut q] else []) := by
  cases gpio with
  | false => simp
  | true => simp [gpioBind_eq]

theorem exec_txInit (s : State) :
    exec .txInit s = .next (s.withInst
      (emit (if s.params.txInitGpio then gpioBind s.latch s.inst.arg0 else [])
        { construct .none s.inst with pin := s.inst.arg0 })) := rfl

/-- Settles O26: construct (R300) with the pin stored, and the guarded bring-up events after the pending ones. -/
theorem txInitBuildsStandaloneTransmitter : Obligations.TxInitBuildsStandaloneTransmitter := by
  refine ⟨rfl, fun s => ?_⟩
  rw [exec_txInit, txInitEvents_eq, List.append_assoc]
  rfl

/-! ### The setters (R308 to R310) -/

theorem exec_setPulseLength (s : State) :
    exec .setPulseLength s = .next (s.withInst { s.inst with pulse := s.inst.arg0 }) := rfl

theorem exec_setRepeatTransmit (s : State) :
    exec .setRepeatTransmit s = .next (s.withInst { s.inst with repeatCount := s.inst.arg0 }) := rfl

theorem exec_setProtocol (s : State) :
    exec .setProtocol s = .next (s.withInst { s.inst with protocol := s.inst.arg0 }) := rfl

/-- Settles O28: each setter is one record update, with no test of ARG0. -/
theorem settersStoreArg0Unvalidated : Obligations.SettersStoreArg0Unvalidated :=
  ⟨rfl, rfl, rfl, fun s => ⟨exec_setPulseLength s, exec_setRepeatTransmit s, exec_setProtocol s⟩⟩

end Sys2Proof.Machine
end

section
/-! SWITCH_ON and SWITCH_OFF (42_switch_handle.md R311 to R313). -/

namespace Sys2Proof.Machine

/-! ### switch(on) on each of its paths (R311) -/

theorem switchTo_of_variant_none {s : State} (h : s.inst.variant = .none) (on : Bool) :
    switchTo on s = raiseErr .noVariant s.inst := if_pos h

/-- The waveform is that of the snapshot before the latch, which no field of the snapshot depends on. -/
theorem switchTo_of_some {s : State} {on : Bool} {w : List Byte} (h : s.inst.variant ≠ .none)
    (hw : encodeCodeword s.params.familyTable s.inst on = some w) :
    switchTo on s = emit (sendTri (snapshot s.inst) w) (latchCw (some w) s.inst) := by
  rw [switchTo, if_neg h, hw]

theorem switchTo_of_none {s : State} {on : Bool} (h : s.inst.variant ≠ .none)
    (hnone : encodeCodeword s.params.familyTable s.inst on = none) : switchTo on s = latchCw none s.inst := by
  rw [switchTo, if_neg h, hnone]

/-! ### The two commands (R312, R313) -/

theorem exec_switchOn (s : State) : exec .switchOn s = .next (s.withInst (switchTo true s)) := rfl

theorem exec_switchOff (s : State) : exec .switchOff s = .next (s.withInst (switchTo false s)) := rfl

/-- Settles O38: both commands are switch(on), and the variant and the encoder's answer choose its path. -/
theorem switchCommandsQueueTheWaveform : Obligations.SwitchCommandsQueueTheWaveform := by
  refine ⟨rfl, rfl, fun s => ⟨fun hunbound i hi => ?_, fun hbound =>
    ⟨fun w hw => ?_, fun w hw => ?_, fun hnone => ?_, fun hnone => ?_⟩⟩⟩
  · rcases List.mem_pair.1 hi with rfl | rfl
    · rw [exec_switchOn, switchTo_of_variant_none hunbound]
      rfl
    · rw [exec_switchOff, switchTo_of_variant_none hunbound]
      rfl
  · rw [exec_switchOn, switchTo_of_some hbound hw]
    rfl
  · rw [exec_switchOff, switchTo_of_some hbound hw]
    rfl
  · rw [exec_switchOn, switchTo_of_none hbound hnone]
    rfl
  · rw [exec_switchOff, switchTo_of_none hbound hnone]
    rfl

end Sys2Proof.Machine
end

section
/-! Power-on reset of a running platform (10_state.md R49; 70_reset_and_hazards.md R500). -/

namespace Sys2Proof.Machine

/-- The host accesses kept over the reset (log 11) are no register of R49. -/
theorem powerOnInstance_atReset (n : Nat) (i : Instance) : (powerOnInstance n i).atReset :=
  Instance.reset_atReset (i.epoch + n)

theorem length_powerOnReset_instances (s : State) : (powerOnReset s).instances.length = s.instances.length := by
  rw [powerOnReset_instances, List.length_map]

/-- Selected or not, no instance escapes the reset. -/
theorem atReset_of_mem_powerOnReset_instances {s : State} {i : Instance} (h : i ∈ (powerOnReset s).instances) :
    i.atReset := by
  rw [powerOnReset_instances] at h
  obtain ⟨old, -, rfl⟩ := List.mem_map.1 h
  exact powerOnInstance_atReset s.instances.length old

theorem step_of_nextTurn_powerOn {s : State} (hturn : nextTurn s = .powerOn) :
    step s = .next (powerOnReset s.turnUsed) := by
  rw [step, hturn]
  rfl

/-- Settles O23: the step resets each instance to the values of R49, and these make STATUS 0 and the instance idle. -/
theorem powerOnResetsEveryInstance : Obligations.PowerOnResetsEveryInstance := by
  intro s hturn
  refine ⟨powerOnReset s.turnUsed, step_of_nextTurn_powerOn hturn, rfl, rfl,
    length_powerOnReset_instances s.turnUsed, fun i hi => ?_⟩
  have hreset : i.atReset := atReset_of_mem_powerOnReset_instances hi
  exact ⟨hreset, statusWord_of_atReset hreset, Instance.not_busy_of_atReset hreset⟩

end Sys2Proof.Machine
end

section
/-! What a command can do to the instance it runs on, said once for all sixteen (30_encoding.md R124; 42_switch_handle.md R300 to
R313; 41_pulse_transmitter.md R261 to R263). -/

namespace Sys2Proof.Machine

/-! ### The events a command may queue -/

/-- No event names pin -1 (20_memory.md R102), and INIT occurs at most once, and only while LATCH = 0 (42_switch_handle.md R307). -/
def AdmissibleEvents (latch : Bool) (l : List Event) : Prop :=
  (∀ e ∈ l, e.legal = true) ∧ l.count .init ≤ if latch then 0 else 1

theorem admissibleEvents_of_forall {l : List Event} (h : ∀ e ∈ l, e.legal = true ∧ e ≠ .init) (latch : Bool) :
    AdmissibleEvents latch l := by
  have hcount : l.count .init = 0 := List.count_eq_zero.2 fun hmem => (h _ hmem).2 rfl
  exact ⟨fun e he => (h e he).1, by omega⟩

theorem admissibleEvents_nil (latch : Bool) : AdmissibleEvents latch [] := admissibleEvents_of_forall (by simp) latch

theorem admissibleEvents_gpioBind (latch : Bool) (q : Word) : AdmissibleEvents latch (gpioBind latch q) := by
  unfold AdmissibleEvents gpioBind
  by_cases hq : s32 q = -1
  · cases latch <;> simp [hq, Event.legal]
  · cases latch <;> simp [hq, Event.legal]

/-- A WRITE of a waveform is on an enabled pin, and no waveform holds INIT. -/
theorem legal_and_ne_init_of_mem_pulsePair {c : Snapshot} (hi lo : Nat) :
    ∀ e ∈ pulsePair c hi lo, e.legal = true ∧ e ≠ .init := by
  intro e he
  rcases mem_pulsePair he with ⟨b, rfl, hpin⟩ | ⟨m, rfl⟩
  · exact ⟨decide_eq_true hpin, nofun⟩
  · exact ⟨rfl, nofun⟩

theorem admissibleEvents_sendTri (latch : Bool) (c : Snapshot) (w : List Byte) : AdmissibleEvents latch (sendTri c w) :=
  admissibleEvents_of_forall (mem_sendTri legal_and_ne_init_of_mem_pulsePair w) latch

theorem admissibleEvents_sendBin (latch : Bool) (c : Snapshot) (w : List Byte) : AdmissibleEvents latch (sendBin c w) :=
  admissibleEvents_of_forall (mem_sendBin legal_and_ne_init_of_mem_pulsePair w) latch

/-! ### The kinds of commands -/

/-- The commands that build an object anew (42_switch_handle.md R301 to R306). -/
abbrev constructionCommands : List Instr := [.initA, .initB, .initC, .initD, .txInit]

/-- The commands that encode and latch a codeword (40_codeword_encoder.md R210, R211; 42_switch_handle.md R312, R313). -/
abbrev codewordCommands : List Instr := [.switchOn, .switchOff, .encodeOn, .encodeOff]

/-- The commands that can record an error (60_exceptions.md R405). -/
abbrev erringCommands : List Instr :=
  [.initA, .switchOn, .switchOff, .encodeOn, .encodeOff, .sendTristate, .sendBinaryString, .sendBytes]

/-- The ways a command can change the selected instance, into the last argument. -/
inductive CommandEffect (s : State) (i : Instr) : Instance → Prop
  /-- An error and nothing else (60_exceptions.md R407). -/
  | raised (c : ErrCode) (hi : i ∈ erringCommands) (hc : c = .dbufRange ∨ c = .noVariant ∧ s.inst.variant = .none) :
    CommandEffect s i (raiseErr c s.inst)
  /-- construct(v) with its operands stored, and bring-up events (42_switch_handle.md R300). -/
  | constructed (v : Variant) (ch : Byte) (n0 n1 pin : Word) (a : List Byte) (l : List Event) (hi : i ∈ constructionCommands)
      (ha : a.length = 10) (hl : AdmissibleEvents s.latch l) :
    CommandEffect s i
      (emit l { construct v s.inst with paramCh := ch, paramN0 := n0, paramN1 := n1, pin := pin, paramA := a })
  /-- One register of the configuration, and bring-up events (42_switch_handle.md R307 to R310). -/
  | configured (pin pulse count protocol : Word) (l : List Event) (hconstruction : i ∉ constructionCommands)
      (hcodeword : i ∉ codewordCommands) (hpin : i ≠ .enableTransmit → pin = s.inst.pin)
      (hpulse : i ≠ .setPulseLength → pulse = s.inst.pulse) (hcount : i ≠ .setRepeatTransmit → count = s.inst.repeatCount)
      (hprotocol : i ≠ .setProtocol → protocol = s.inst.protocol) (hl : AdmissibleEvents s.latch l) :
    CommandEffect s i
      (emit l { s.inst with pin := pin, pulse := pulse, repeatCount := count, protocol := protocol })
  /-- The encoder's answer latched, and the waveform of a switch command (40_codeword_encoder.md R209; 42_switch_handle.md R311). -/
  | latched (on : Bool) (l : List Event) (hi : i ∈ codewordCommands) (hv : s.inst.variant ≠ .none)
      (hl : AdmissibleEvents s.latch l) :
    CommandEffect s i (emit l (latchCw (encodeCodeword s.params.familyTable s.inst on) s.inst))

theorem emit_nil (i : Instance) : emit [] i = i := by
  rw [emit, List.append_nil]

/-! ### Every command has one of these effects -/

section
variable {s : State} {i : Instr}

/-- A send queues its waveform and changes no register: the configuration effect with every register kept. -/
theorem CommandEffect.sent {l : List Event} (hi : i ∈ [Instr.sendTristate, .sendBinaryString, .sendBytes])
    (hl : AdmissibleEvents s.latch l) : CommandEffect s i (emit l s.inst) := by
  refine .configured s.inst.pin s.inst.pulse s.inst.repeatCount s.inst.protocol l ?_ ?_
    (fun _ => rfl) (fun _ => rfl) (fun _ => rfl) (fun _ => rfl) hl
  · revert i; decide
  · revert i; decide

theorem commandEffect_encodeOnly (hi : i ∈ codewordCommands) (on : Bool) : CommandEffect s i (encodeOnly on s) := by
  by_cases hv : s.inst.variant = .none
  · rw [encodeOnly_of_variant_none hv]
    exact .raised .noVariant (by revert i; decide) (.inr ⟨rfl, hv⟩)
  · rw [encodeOnly_of_variant_ne_none hv, ← emit_nil (latchCw _ _)]
    exact .latched on [] hi hv (admissibleEvents_nil s.latch)

theorem commandEffect_switchTo (hi : i ∈ codewordCommands) (on : Bool) : CommandEffect s i (switchTo on s) := by
  by_cases hv : s.inst.variant = .none
  · rw [switchTo_of_variant_none hv]
    exact .raised .noVariant (by revert i; decide) (.inr ⟨rfl, hv⟩)
  · cases hw : encodeCodeword s.params.familyTable s.inst on with
    | none =>
      rw [switchTo_of_none hv hw, ← hw, ← emit_nil (latchCw _ _)]
      exact .latched on [] hi hv (admissibleEvents_nil s.latch)
    | some w =>
      rw [switchTo_of_some hv hw, ← hw]
      exact .latched on _ hi hv (admissibleEvents_sendTri s.latch _ w)

theorem commandEffect_sendStringWith {send : Snapshot → List Byte → List Event}
    (hi : i ∈ [Instr.sendTristate, .sendBinaryString, .sendBytes])
    (hsend : ∀ c text, AdmissibleEvents s.latch (send c text)) : CommandEffect s i (sendStringWith send s) := by
  cases htext : strAt s.params.dbufSize s.inst s.inst.arg0.toNat with
  | none =>
    rw [sendStringWith_of_none htext]
    exact .raised .dbufRange (by revert i; decide) (.inl rfl)
  | some text =>
    rw [sendStringWith_of_some htext]
    exact .sent hi (hsend _ text)

end

theorem commandEffect_sendBytes (s : State) :
    ∃ j, exec .sendBytes s = .next (s.withInst j) ∧ CommandEffect s .sendBytes j := by
  by_cases hcount : s.inst.arg1.toInt ≤ 0
  · refine ⟨s.inst, exec_sendBytes_of_nonpos hcount, ?_⟩
    rw [← emit_nil s.inst]
    exact .sent (by decide) (admissibleEvents_nil s.latch)
  have hpos : 0 < s.inst.arg1.toInt := by omega
  have hnat : s.inst.arg1.toInt = s.inst.arg1.toNat := toInt_eq_toNat_of_pos hpos
  by_cases hinside : s.inst.arg0.toNat + s.inst.arg1.toNat ≤ s.params.dbufSize
  · exact ⟨_, exec_sendBytes_of_inside hnat (by omega) hinside,
      .sent (by decide) (admissibleEvents_sendBin s.latch _ _)⟩
  · exact ⟨_, exec_sendBytes_of_past_end hnat (by omega) (by omega), .raised .dbufRange (by decide) (.inl rfl)⟩

theorem commandEffect_initA (s : State) :
    ∃ j, exec .initA s = .next (s.withInst j) ∧ CommandEffect s .initA j := by
  by_cases hinside : s.inst.arg0.toNat + 5 ≤ s.params.dbufSize ∧ s.inst.arg1.toNat + 5 ≤ s.params.dbufSize
  · obtain ⟨hgroup, hdevice⟩ := hinside
    refine ⟨_, exec_initA_of_inside hgroup hdevice, ?_⟩
    rw [← emit_nil { construct .a s.inst with paramA := _ }]
    exact .constructed .a 0 0 0 (-1) _ [] (by decide) (by simp) (admissibleEvents_nil s.latch)
  · exact ⟨_, exec_initA_of_past_end (by omega), .raised .dbufRange (by decide) (.inl rfl)⟩

/-- TX_INIT's events are those of ENABLE_TRANSMIT or none, as `TXINIT_GPIO` says (42_switch_handle.md R306). -/
theorem admissibleEvents_txInit (gpio latch : Bool) (q : Word) :
    AdmissibleEvents latch (if gpio then gpioBind latch q else []) := by
  cases gpio with
  | true => exact admissibleEvents_gpioBind latch q
  | false => exact admissibleEvents_nil latch

theorem exec_enableTransmit (s : State) :
    exec .enableTransmit s = .next (s.withInst (emit (gpioBind s.latch s.inst.arg0) { s.inst with pin := s.inst.arg0 })) := rfl

/-- A command always completes, with one of the effects of CommandEffect. -/
theorem exec_commandEffect (i : Instr) (s : State) :
    ∃ j, exec i s = .next (s.withInst j) ∧ CommandEffect s i j := by
  cases i with
  | initA => exact commandEffect_initA s
  | initB =>
    refine ⟨_, exec_initB s, ?_⟩
    rw [← emit_nil { construct .b s.inst with paramN0 := _, paramN1 := _ }]
    exact .constructed .b 0 _ _ (-1) _ [] (by decide) rfl (admissibleEvents_nil s.latch)
  | initC =>
    refine ⟨_, exec_initC s, ?_⟩
    rw [← emit_nil { construct .c s.inst with paramCh := _, paramN0 := _, paramN1 := _ }]
    exact .constructed .c _ _ _ (-1) _ [] (by decide) rfl (admissibleEvents_nil s.latch)
  | initD =>
    refine ⟨_, exec_initD s, ?_⟩
    rw [← emit_nil { construct .d s.inst with paramCh := _, paramN0 := _ }]
    exact .constructed .d _ _ 0 (-1) _ [] (by decide) rfl (admissibleEvents_nil s.latch)
  | txInit =>
    exact ⟨_, exec_txInit s, .constructed .none 0 0 0 _ _ _ (by decide) rfl (admissibleEvents_txInit _ s.latch _)⟩
  | enableTransmit =>
    exact ⟨_, exec_enableTransmit s, .configured _ s.inst.pulse s.inst.repeatCount s.inst.protocol _ (by decide) (by decide)
      (absurd rfl) (fun _ => rfl) (fun _ => rfl) (fun _ => rfl) (admissibleEvents_gpioBind s.latch _)⟩
  | setPulseLength =>
    refine ⟨_, exec_setPulseLength s, ?_⟩
    rw [← emit_nil { s.inst with pulse := _ }]
    exact .configured s.inst.pin _ s.inst.repeatCount s.inst.protocol [] (by decide) (by decide)
      (fun _ => rfl) (absurd rfl) (fun _ => rfl) (fun _ => rfl) (admissibleEvents_nil s.latch)
  | setRepeatTransmit =>
    refine ⟨_, exec_setRepeatTransmit s, ?_⟩
    rw [← emit_nil { s.inst with repeatCount := _ }]
    exact .configured s.inst.pin s.inst.pulse _ s.inst.protocol [] (by decide) (by decide)
      (fun _ => rfl) (fun _ => rfl) (absurd rfl) (fun _ => rfl) (admissibleEvents_nil s.latch)
  | setProtocol =>
    refine ⟨_, exec_setProtocol s, ?_⟩
    rw [← emit_nil { s.inst with protocol := _ }]
    exact .configured s.inst.pin s.inst.pulse s.inst.repeatCount _ [] (by decide) (by decide)
      (fun _ => rfl) (fun _ => rfl) (fun _ => rfl) (absurd rfl) (admissibleEvents_nil s.latch)
  | switchOn => exact ⟨_, exec_switchOn s, commandEffect_switchTo (by decide) true⟩
  | switchOff => exact ⟨_, exec_switchOff s, commandEffect_switchTo (by decide) false⟩
  | encodeOn => exact ⟨_, exec_encodeOn s, commandEffect_encodeOnly (by decide) true⟩
  | encodeOff => exact ⟨_, exec_encodeOff s, commandEffect_encodeOnly (by decide) false⟩
  | sendTristate =>
    exact ⟨_, exec_sendTristate s, commandEffect_sendStringWith (by decide) (admissibleEvents_sendTri s.latch)⟩
  | sendBinaryString =>
    exact ⟨_, exec_sendBinaryString s, commandEffect_sendStringWith (by decide) (admissibleEvents_sendBin s.latch)⟩
  | sendBytes => exact commandEffect_sendBytes s

/-- The form in which a command that has run is taken apart. -/
theorem commandEffect_of_exec {i : Instr} {s t : State} (h : exec i s = .next t) :
    ∃ j, t = s.withInst j ∧ CommandEffect s i j := by
  obtain ⟨j, hexec, heffect⟩ := exec_commandEffect i s
  rw [hexec] at h
  cases h
  exact ⟨j, rfl, heffect⟩

/-! ### The frame of all commands -/

/-- What no command changes (10_state.md R31, R46 to R48); of the sequencer's state it is AWAIT, since Q may grow. -/
structure Instance.FrameOfCommands (i j : Instance) : Prop where
  arg0 : j.arg0 = i.arg0
  arg1 : j.arg1 = i.arg1
  arg2 : j.arg2 = i.arg2
  dbuf : j.dbuf = i.dbuf
  await : j.await = i.await
  epoch : j.epoch = i.epoch
  out : j.out = i.out

/-- latchCw writes CW and CW_VALID alone (40_codeword_encoder.md R209). -/
theorem latchCw_eq (r : Option (List Byte)) (i : Instance) :
    latchCw r i = { i with cw := (latchCw r i).cw, cwValid := (latchCw r i).cwValid } := by
  cases r <;> rfl

section
variable {s : State} {i : Instr} {j : Instance}

theorem CommandEffect.frame (h : CommandEffect s i j) : s.inst.FrameOfCommands j := by
  cases h with
  | raised => exact ⟨rfl, rfl, rfl, rfl, rfl, rfl, rfl⟩
  | constructed => exact ⟨rfl, rfl, rfl, rfl, rfl, rfl, rfl⟩
  | configured => exact ⟨rfl, rfl, rfl, rfl, rfl, rfl, rfl⟩
  | latched =>
    rw [latchCw_eq]
    exact ⟨rfl, rfl, rfl, rfl, rfl, rfl, rfl⟩

/-- Q only grows, by events that may be queued. -/
theorem CommandEffect.queue (h : CommandEffect s i j) :
    ∃ l, AdmissibleEvents s.latch l ∧ j.queue = s.inst.queue ++ l := by
  cases h with
  | raised => exact ⟨[], admissibleEvents_nil s.latch, (List.append_nil _).symm⟩
  | constructed _ _ _ _ _ _ l _ _ hl => exact ⟨l, hl, rfl⟩
  | configured _ _ _ _ l _ _ _ _ _ _ hl => exact ⟨l, hl, rfl⟩
  | latched _ l _ _ hl =>
    rw [latchCw_eq]
    exact ⟨l, hl, rfl⟩

end

end Sys2Proof.Machine
end

section
/-! The statements about every command at once (10_state.md R31, R35, R38, R46, R47; 60_exceptions.md R406, R407). -/

namespace Sys2Proof.Machine

/-! ### Which commands change which registers -/

section
variable {s : State} {i : Instr} {j : Instance}

/-- The registers that only a constructor changes, or the one command that sets them. -/
theorem CommandEffect.configuration (h : CommandEffect s i j) (hi : i ∉ constructionCommands) :
    j.variant = s.inst.variant ∧ j.paramA = s.inst.paramA ∧ j.paramCh = s.inst.paramCh
      ∧ j.paramN0 = s.inst.paramN0 ∧ j.paramN1 = s.inst.paramN1
      ∧ (i ≠ .enableTransmit → j.pin = s.inst.pin) ∧ (i ≠ .setPulseLength → j.pulse = s.inst.pulse)
      ∧ (i ≠ .setRepeatTransmit → j.repeatCount = s.inst.repeatCount)
      ∧ (i ≠ .setProtocol → j.protocol = s.inst.protocol)
      ∧ (i ∉ codewordCommands → j.cwValid = s.inst.cwValid) := by
  cases h with
  | raised =>
    exact ⟨rfl, rfl, rfl, rfl, rfl, fun _ => rfl, fun _ => rfl, fun _ => rfl, fun _ => rfl, fun _ => rfl⟩
  | constructed _ _ _ _ _ _ _ hconstruction => exact absurd hconstruction hi
  | configured _ _ _ _ _ _ _ hpin hpulse hcount hprotocol =>
    exact ⟨rfl, rfl, rfl, rfl, rfl, hpin, hpulse, hcount, hprotocol, fun _ => rfl⟩
  | latched _ _ hcodeword =>
    rw [latchCw_eq]
    exact ⟨rfl, rfl, rfl, rfl, rfl, fun _ => rfl, fun _ => rfl, fun _ => rfl, fun _ => rfl, absurd hcodeword⟩

theorem CommandEffect.cw (h : CommandEffect s i j) (hi : i ∉ codewordCommands) : j.cw = s.inst.cw := by
  cases h with
  | raised => rfl
  | constructed => rfl
  | configured => rfl
  | latched _ _ hcodeword => exact absurd hcodeword hi

/-- A command either raises an error, and is then one that can, or leaves ERR and ERRCODE alone. -/
theorem CommandEffect.error (h : CommandEffect s i j) :
    (∃ c, i ∈ erringCommands ∧ (c = .dbufRange ∨ c = .noVariant ∧ s.inst.variant = .none) ∧ j = raiseErr c s.inst)
      ∨ j.err = s.inst.err ∧ j.errCode = s.inst.errCode := by
  cases h with
  | raised c hi hc => exact .inl ⟨c, hi, hc, rfl⟩
  | constructed => exact .inr ⟨rfl, rfl⟩
  | configured => exact .inr ⟨rfl, rfl⟩
  | latched =>
    rw [latchCw_eq]
    exact .inr ⟨rfl, rfl⟩

end

/-- What a byte of the data buffer reads as depends on the written bytes and the draw of the unwritten ones (log 3). -/
theorem dbufByte_congr {i j : Instance} (hdbuf : j.dbuf = i.dbuf) (hepoch : j.epoch = i.epoch) (k : Nat) :
    j.dbufByte k = i.dbufByte k := by
  rw [Instance.dbufByte, hdbuf, hepoch]
  rfl

/-! ### The statements -/

/-- Settles O52: the frame of every effect, and the kind of command each effect belongs to. -/
theorem commandsChangeOnlyTheirRegisters : Obligations.CommandsChangeOnlyTheirRegisters := by
  intro i s t hexec
  obtain ⟨j, rfl, heffect⟩ := commandEffect_of_exec hexec
  have hframe := heffect.frame
  obtain ⟨l, -, hqueue⟩ := heffect.queue
  refine ⟨⟨rfl, rfl, rfl, rfl, rfl, hframe.arg0, hframe.arg1, hframe.arg2, hframe.dbuf, hframe.await, hframe.epoch,
    hframe.out, dbufByte_congr hframe.dbuf hframe.epoch, l, hqueue⟩, heffect.configuration, heffect.cw, fun hi => ?_⟩
  rcases heffect.error with ⟨-, herring, -⟩ | hkept
  · exact absurd herring hi
  · exact hkept

/-- Settles O53: only the effect that raises an error sets ERR, and it is nothing but that. -/
theorem erringCommandHasNoOtherEffect : Obligations.ErringCommandHasNoOtherEffect := by
  intro i s t hexec hclear hset
  obtain ⟨j, rfl, heffect⟩ := commandEffect_of_exec hexec
  rcases heffect.error with ⟨c, -, hc, rfl⟩ | ⟨hkept, -⟩
  · have hcode : (raiseErr c s.inst).errCode = c := by simp [hclear]
    refine ⟨rfl, ?_⟩
    rw [withInst_inst, hcode]
    exact hc
  · rw [withInst_inst, hkept, hclear] at hset
    cases hset

/-- Settles O27: the bring-up events of R307 after the pending ones, LATCH read before any of them is presented. -/
theorem enableTransmitBindsPinAndBringsUp : Obligations.EnableTransmitBindsPinAndBringsUp := by
  refine ⟨rfl, fun s => ?_⟩
  rw [exec_enableTransmit, gpioBind_eq, List.append_assoc]
  rfl

end Sys2Proof.Machine
end

section
/-! What a step can do: one case per turn, and what a host's turn keeps (10_state.md R47, R48; 20_memory.md R90 to R94;
60_exceptions.md R411, R416). -/

namespace Sys2Proof.Machine

/-! ### One step, by the turn that is taken -/

theorem step_eq_takeTurn (s : State) : step s = takeTurn (nextTurn s) s.turnUsed := rfl

section
variable {s t : State}

/-- Who moved, and what its turn answered. -/
theorem step_cases (h : step s = .next t) :
    nextTurn s = .host ∧ hostTurn s.turnUsed = .next t
      ∨ nextTurn s = .sequencer ∧ t = present s.turnUsed
      ∨ nextTurn s = .gpio ∧ t = acknowledge s.turnUsed
      ∨ nextTurn s = .hang ∧ t = hangGpio s.turnUsed
      ∨ (∃ k, nextTurn s = .select k ∧ t = selectInstance k s.turnUsed)
      ∨ nextTurn s = .powerOn ∧ t = powerOnReset s.turnUsed := by
  rw [step_eq_takeTurn] at h
  cases hturn : nextTurn s <;> rw [hturn] at h
  case host => exact .inl ⟨rfl, h⟩
  all_goals cases h
  case sequencer => exact .inr (.inl ⟨rfl, rfl⟩)
  case gpio => exact .inr (.inr (.inl ⟨rfl, rfl⟩))
  case hang => exact .inr (.inr (.inr (.inl ⟨rfl, rfl⟩)))
  case select k => exact .inr (.inr (.inr (.inr (.inl ⟨k, rfl, rfl⟩))))
  case powerOn => exact .inr (.inr (.inr (.inr (.inr ⟨rfl, rfl⟩))))

end

/-- An acknowledgement clears AWAIT, unless the capability never gives one (R48; 93_implementation_defined.md S8). -/
theorem acknowledge_cases (s : State) :
    s.inst.out.hung = true ∧ acknowledge s = s
      ∨ s.inst.out.hung = false ∧ acknowledge s = s.withInst { s.inst with await := false } := by
  unfold acknowledge
  cases s.inst.out.hung
  · exact .inr ⟨rfl, rfl⟩
  · exact .inl ⟨rfl, rfl⟩

/-- The capability can stop answering only while an event waits for it (93_implementation_defined.md S8). -/
theorem hangGpio_cases (s : State) :
    hangGpio s = s
      ∨ s.inst.await = true ∧ hangGpio s = s.withInst { s.inst with out := { s.inst.out with hung := true } } := by
  unfold hangGpio
  cases s.inst.await
  · exact .inl rfl
  · exact .inr ⟨rfl, rfl⟩

theorem withInst_self (s : State) : s.withInst s.inst = s := rfl

/-! ### What a host's turn keeps -/

/-- A property of the selected instance that every access of its host keeps: the record of the access, an error, an argument
word, a data buffer word, and the effect of each command on an idle instance. -/
structure KeptByHost (s : State) (P : Instance → Prop) : Prop where
  recorded : ∀ i host reads, P i → P { i with out := { i.out with host := host, reads := reads } }
  raised : ∀ i c, c ≠ .noError → P i → P (raiseErr c i)
  argumentsStored : ∀ i a0 a1 a2, P i → P { i with arg0 := a0, arg1 := a1, arg2 := a2 }
  wordStored : ∀ i k v, (s.params.dbufSize % 4 = 0 → k + 3 < s.params.dbufSize) → P i →
    P { i with dbuf := writeDbufWord i.dbuf k v }
  commandRun : ∀ rest i j, s.inst.busy = false → CommandEffect (s.withHost rest) i j → P (s.withHost rest).inst → P j

section
variable {s t : State} {P : Instance → Prop}

/-- A read that is answered changes ERR at most, beside the record of it (20_memory.md R81, R88). -/
theorem KeptByHost.afterRead (hP : KeptByHost s P) {i : Instance} (hi : P i) (target : Target) :
    P (Machine.afterRead i target) := by
  rcases afterRead_cases i target with h | ⟨-, h⟩ <;> rw [h]
  · exact hi
  · exact hP.raised i _ nofun hi

theorem KeptByHost.afterWrite (hP : KeptByHost s P) {i : Instance} (hi : P i) (v : Word) (offset : Nat) :
    P (Machine.afterWrite v i (targetOf s.params.dbufSize offset)) := by
  rcases afterWrite_cases v i (targetOf s.params.dbufSize offset) with
    ⟨-, h⟩ | ⟨-, h⟩ | ⟨-, h⟩ | ⟨-, h⟩ | ⟨k, hk, h⟩ | h <;> rw [h]
  · exact hi
  · exact hP.argumentsStored i v i.arg1 i.arg2 hi
  · exact hP.argumentsStored i i.arg0 v i.arg2 hi
  · exact hP.argumentsStored i i.arg0 i.arg1 v hi
  · exact hP.wordStored i k v (fun hsize => targetOf_dbuf_inside hsize hk) hi
  · exact hP.raised i _ nofun hi

theorem KeptByHost.withHost (hP : KeptByHost s P) (hs : P s.inst) (rest : List Access) : P (s.withHost rest).inst :=
  hP.recorded s.inst rest s.inst.out.reads hs

/-- A host's turn keeps such a property, and changes nothing but the selected instance. -/
theorem hostTurn_keeps (hP : KeptByHost s P) (hs : P s.inst) (h : hostTurn s = .next t) :
    ∃ j, t = s.withInst j ∧ P j := by
  rcases hostTurn_cases h with rfl | ⟨offset, rest, -, rfl⟩ | ⟨-, offset, v, rest, -, -, rfl⟩
    | ⟨hidle, offset, w, rest, i, -, -, hexec⟩ | ⟨-, offset, w, rest, -, rfl⟩
  · exact ⟨t.inst, withInst_self t, hs⟩
  · have hread := hP.afterRead (hP.withHost hs rest) (targetOf s.params.dbufSize offset)
    exact ⟨_, rfl, hP.recorded _ _ _ hread⟩
  · exact ⟨_, rfl, hP.afterWrite (hP.withHost hs rest) v offset⟩
  · obtain ⟨j, rfl, heffect⟩ := commandEffect_of_exec hexec
    exact ⟨j, rfl, hP.commandRun rest i j hidle heffect (hP.withHost hs rest)⟩
  · exact ⟨_, rfl, hP.raised _ _ nofun (hP.withHost hs rest)⟩

end

/-- The host reaches neither AWAIT nor the event port nor the capability (10_state.md R48). -/
theorem keptByHost_port (s : State) (await hung : Bool) (events : List Event) :
    KeptByHost s fun i => i.await = await ∧ i.out.hung = hung ∧ i.out.events = events where
  recorded _ _ _ hi := hi
  raised _ _ _ hi := hi
  argumentsStored _ _ _ _ hi := hi
  wordStored _ _ _ _ hi := hi
  commandRun rest i j _ heffect hi := by
    rw [heffect.frame.await, heffect.frame.out]
    exact hi

theorem hostTurn_port {s t : State} (h : hostTurn s = .next t) :
    ∃ j, t = s.withInst j ∧ j.await = s.inst.await ∧ j.out.hung = s.inst.out.hung
      ∧ j.out.events = s.inst.out.events :=
  hostTurn_keeps (keptByHost_port s _ _ _) ⟨rfl, rfl, rfl⟩ h

/-! ### Turns of one instance, whose neighbours stay -/

/-- A turn other than a selection and a power-on reset changes the selected instance and LATCH at most. -/
theorem step_withInst {s t : State} (h : step s = .next t) (hpower : nextTurn s ≠ .powerOn)
    (hselect : ∀ k, nextTurn s ≠ .select k) :
    t = { s.turnUsed.withInst t.inst with latch := t.latch } := by
  rcases step_cases h with ⟨-, hhost⟩ | ⟨-, rfl⟩ | ⟨-, rfl⟩ | ⟨-, rfl⟩ | ⟨k, hk, -⟩ | ⟨hp, -⟩
  · obtain ⟨j, rfl, -⟩ := hostTurn_port hhost
    rfl
  · rcases present_cases s.turnUsed with heq | ⟨e, rest, -, -, heq⟩ <;> rw [heq] <;> rfl
  · rcases acknowledge_cases s.turnUsed with ⟨-, heq⟩ | ⟨-, heq⟩ <;> rw [heq] <;> rfl
  · rcases hangGpio_cases s.turnUsed with heq | ⟨-, heq⟩ <;> rw [heq] <;> rfl
  · exact absurd hk (hselect k)
  · exact absurd hp hpower

/-! ### The statements about a step -/

/-- Settles O18: the sequencer waits, the acknowledgement is withheld, and the host reaches neither AWAIT nor the capability. -/
theorem hungCapabilityKeepsInstanceBusy : Obligations.HungCapabilityKeepsInstanceBusy := by
  intro s t hhung hawait hstep hpower hselect
  have hport : t.inst.out.hung = true ∧ t.inst.await = true := by
    rcases step_cases hstep with ⟨-, hhost⟩ | ⟨-, rfl⟩ | ⟨-, rfl⟩ | ⟨-, rfl⟩ | ⟨k, hk, -⟩ | ⟨hp, -⟩
    · obtain ⟨j, rfl, hj, hjhung, -⟩ := hostTurn_port hhost
      exact ⟨hjhung.trans hhung, hj.trans hawait⟩
    · rcases present_cases s.turnUsed with heq | ⟨e, rest, hfree, -, -⟩
      · rw [heq]
        exact ⟨hhung, hawait⟩
      · exact absurd (hawait.symm.trans hfree) nofun
    · rcases acknowledge_cases s.turnUsed with ⟨-, heq⟩ | ⟨hanswers, -⟩
      · rw [heq]
        exact ⟨hhung, hawait⟩
      · exact absurd (hhung.symm.trans hanswers) nofun
    · rcases hangGpio_cases s.turnUsed with heq | ⟨-, heq⟩ <;> rw [heq]
      · exact ⟨hhung, hawait⟩
      · exact ⟨rfl, hawait⟩
    · exact absurd hk (hselect k)
    · exact absurd hp hpower
  obtain ⟨hhung', hawait'⟩ := hport
  exact ⟨hhung', hawait', by rw [Instance.busy, hawait', Bool.or_true]⟩

/-- Settles O19: of the six turns only a presentation and a power-on reset write LATCH. -/
theorem latchSetByInitClearedByPowerOn : Obligations.LatchSetByInitClearedByPowerOn := by
  intro s t hstep
  have hkept (h : t.latch = s.latch) :
      (s.latch = false → t.latch = true → nextTurn s = .sequencer ∧ s.inst.await = false ∧ ∃ rest, s.inst.queue = .init :: rest)
        ∧ (s.latch = true → t.latch = false → nextTurn s = .powerOn) := by
    rw [h]
    exact ⟨fun hclear hset => absurd (hclear.symm.trans hset) nofun, fun hset hclear => absurd (hset.symm.trans hclear) nofun⟩
  rcases step_cases hstep with ⟨-, hhost⟩ | ⟨hturn, rfl⟩ | ⟨-, rfl⟩ | ⟨-, rfl⟩ | ⟨k, -, rfl⟩ | ⟨hp, rfl⟩
  · obtain ⟨j, rfl, -⟩ := hostTurn_port hhost
    exact hkept rfl
  · rcases present_cases s.turnUsed with heq | ⟨e, rest, hfree, hqueue, heq⟩
    · exact hkept (by rw [heq]; rfl)
    · rw [heq]
      refine ⟨fun hclear hset => ?_, fun hset hclear => ?_⟩
      · have he : e = .init := by simpa [hclear] using hset
        subst he
        exact ⟨hturn, hfree, rest, hqueue⟩
      · simp [hset] at hclear
  · rcases acknowledge_cases s.turnUsed with ⟨-, heq⟩ | ⟨-, heq⟩ <;> exact hkept (by rw [heq]; rfl)
  · rcases hangGpio_cases s.turnUsed with heq | ⟨-, heq⟩ <;> exact hkept (by rw [heq]; rfl)
  · obtain ⟨-, hlatch, -⟩ := selectInstance_frame k s.turnUsed
    exact hkept hlatch
  · exact ⟨fun _ hset => absurd hset nofun, fun _ _ => hp⟩

/-- A recorded error and its code survive every access of the host: a later error does not replace the code (60_exceptions.md R406). -/
theorem keptByHost_error (s : State) (code : ErrCode) : KeptByHost s fun i => i.err = true ∧ i.errCode = code where
  recorded _ _ _ hi := hi
  raised i c _ hi := by
    obtain ⟨herr, hcode⟩ := hi
    rw [raiseErr_err, raiseErr_errCode, herr]
    exact ⟨rfl, hcode⟩
  argumentsStored _ _ _ _ hi := hi
  wordStored _ _ _ _ hi := hi
  commandRun rest i j _ heffect hi := by
    rcases heffect.error with ⟨c, -, -, rfl⟩ | ⟨herr, hcode⟩
    · rw [raiseErr_err, raiseErr_errCode, hi.1]
      exact ⟨rfl, hi.2⟩
    · rw [herr, hcode]
      exact hi

/-- Settles O54: the host's accesses keep a recorded error, and the sequencer's and the capability's turns do not touch it. -/
theorem recordedErrorStaysUntilPowerOn : Obligations.RecordedErrorStaysUntilPowerOn := by
  intro s t hstep hpower hselect herr
  rcases step_cases hstep with ⟨-, hhost⟩ | ⟨-, rfl⟩ | ⟨-, rfl⟩ | ⟨-, rfl⟩ | ⟨k, hk, -⟩ | ⟨hp, -⟩
  · obtain ⟨j, rfl, hj⟩ := hostTurn_keeps (keptByHost_error s.turnUsed s.inst.errCode) ⟨herr, rfl⟩ hhost
    exact hj
  · rcases present_cases s.turnUsed with heq | ⟨e, rest, -, -, heq⟩ <;> rw [heq] <;> exact ⟨herr, rfl⟩
  · rcases acknowledge_cases s.turnUsed with ⟨-, heq⟩ | ⟨-, heq⟩ <;> rw [heq] <;> exact ⟨herr, rfl⟩
  · rcases hangGpio_cases s.turnUsed with heq | ⟨-, heq⟩ <;> rw [heq] <;> exact ⟨herr, rfl⟩
  · exact absurd hk (hselect k)
  · exact absurd hp hpower

end Sys2Proof.Machine
end

section
/-! Instances share only LATCH: a turn neither reads nor changes the instances beside the selected one (60_exceptions.md R416;
20_memory.md R94). -/

namespace Sys2Proof.Machine

/-! ### Other neighbours -/

/-- The platform with other instances beside the selected one. -/
def State.withNeighbours (before after : List Instance) (s : State) : State := { s with before := before, after := after }

/-- The outcome of a turn with its next state changed. -/
def mapNext (f : State → State) : Result → Result
  | .next s => .next (f s)
  | .fault r => .fault r
  | .refused r => .refused r

section
variable (before after : List Instance)

theorem exec_withNeighbours (i : Instr) (s : State) :
    exec i (s.withNeighbours before after) = mapNext (State.withNeighbours before after) (exec i s) := by
  cases i <;> rfl

theorem runCommand_withNeighbours (w : Word) (s : State) :
    runCommand w (s.withNeighbours before after) = mapNext (State.withNeighbours before after) (runCommand w s) := by
  unfold runCommand
  cases decode w with
  | ok i => exact exec_withNeighbours before after i s
  | error => rfl

theorem hostTurn_withNeighbours (s : State) :
    hostTurn (s.withNeighbours before after) = mapNext (State.withNeighbours before after) (hostTurn s) := by
  have hinst : (s.withNeighbours before after).inst = s.inst := rfl
  have hparams : (s.withNeighbours before after).params = s.params := rfl
  unfold hostTurn
  simp only [hinst, hparams]
  match s.inst.out.host with
  | [] => rfl
  | .read offset :: rest =>
    simp only
    split <;> rfl
  | .write offset v :: rest =>
    simp only
    split
    · rfl
    split
    · rfl
    split
    · exact runCommand_withNeighbours before after v (s.withHost rest)
    · rfl

theorem present_withNeighbours (s : State) :
    present (s.withNeighbours before after) = (present s).withNeighbours before after := by
  have hinst : (s.withNeighbours before after).inst = s.inst := rfl
  unfold present
  rw [hinst]
  split <;> rfl

theorem acknowledge_withNeighbours (s : State) :
    acknowledge (s.withNeighbours before after) = (acknowledge s).withNeighbours before after := by
  have hinst : (s.withNeighbours before after).inst = s.inst := rfl
  unfold acknowledge
  rw [hinst]
  split <;> rfl

theorem hangGpio_withNeighbours (s : State) :
    hangGpio (s.withNeighbours before after) = (hangGpio s).withNeighbours before after := by
  have hinst : (s.withNeighbours before after).inst = s.inst := rfl
  unfold hangGpio
  rw [hinst]
  split <;> rfl

/-- The turns of one instance do the same beside other neighbours. -/
theorem step_withNeighbours {s t : State} (h : step s = .next t) (hpower : nextTurn s ≠ .powerOn)
    (hselect : ∀ k, nextTurn s ≠ .select k) :
    step (s.withNeighbours before after) = .next (t.withNeighbours before after) := by
  have hturn : nextTurn (s.withNeighbours before after) = nextTurn s := rfl
  have hused : (s.withNeighbours before after).turnUsed = s.turnUsed.withNeighbours before after := rfl
  rw [step_eq_takeTurn, hturn, hused]
  rcases step_cases h with ⟨ht, hhost⟩ | ⟨ht, rfl⟩ | ⟨ht, rfl⟩ | ⟨ht, rfl⟩ | ⟨k, hk, -⟩ | ⟨hp, -⟩
  · rw [ht, takeTurn, hostTurn_withNeighbours, hhost]
    rfl
  · rw [ht, takeTurn, present_withNeighbours]
  · rw [ht, takeTurn, acknowledge_withNeighbours]
  · rw [ht, takeTurn, hangGpio_withNeighbours]
  · exact absurd hk (hselect k)
  · exact absurd hp hpower

end

/-! ### The statement -/

theorem step_of_nextTurn_select {s : State} {k : Nat} (hturn : nextTurn s = .select k) :
    step s = .next (selectInstance k s.turnUsed) := by
  rw [step_eq_takeTurn, hturn, takeTurn]

/-- Settles O21: the turns of one instance commute with exchanging its neighbours, and a selection moves no instance. -/
theorem instancesShareOnlyLatch : Obligations.InstancesShareOnlyLatch := by
  refine ⟨fun s t hstep hpower hselect => ⟨?_, ?_, fun b a => step_withNeighbours b a hstep hpower hselect⟩,
    fun s t k hstep hturn => ?_⟩
  · rw [step_withInst hstep hpower hselect]
    rfl
  · rw [step_withInst hstep hpower hselect]
    rfl
  · rw [step_of_nextTurn_select hturn] at hstep
    cases hstep
    obtain ⟨-, hlatch, -⟩ := selectInstance_frame k s.turnUsed
    exact ⟨selectInstance_instances k s.turnUsed, hlatch, fun i hi => (selectInstance_of_some (s := s.turnUsed) hi).1⟩

end Sys2Proof.Machine
end

section
/-! The two invariants: every step keeps a state legal, and one instance brings the GPIO up at most once per power-on
(00_scope.md R7; 10_state.md R33, R35, R47, R50; 20_memory.md R102; 60_exceptions.md R417). -/

namespace Sys2Proof.Machine

/-! ### The instance after a presentation (10_state.md R48) -/

/-- The instance once event `e` stands on the port, not yet acknowledged, with `rest` still pending. -/
def Instance.presenting (e : Event) (rest : List Event) (i : Instance) : Instance :=
  { i with queue := rest, await := true, out := { i.out with events := i.out.events ++ [e] } }

@[simp] theorem presenting_queue (e : Event) (rest : List Event) (i : Instance) : (i.presenting e rest).queue = rest := rfl

@[simp] theorem presenting_events (e : Event) (rest : List Event) (i : Instance) :
    (i.presenting e rest).out.events = i.out.events ++ [e] := rfl

/-- present_cases with the new state as a change of the selected instance and of LATCH. -/
theorem present_cases_presenting (s : State) :
    present s = s ∨ ∃ e rest, s.inst.await = false ∧ s.inst.queue = e :: rest ∧
      present s = { s.withInst (s.inst.presenting e rest) with latch := s.latch || decide (e = .init) } :=
  present_cases s

theorem present_neighbours (s : State) : (present s).before = s.before ∧ (present s).after = s.after := by
  rcases present_cases s with h | ⟨e, rest, -, -, h⟩ <;> rw [h] <;> exact ⟨rfl, rfl⟩

/-! ### Legal instances -/

section
variable {size : Nat} {i : Instance}

theorem raiseErr_wf {c : ErrCode} (hc : c ≠ .noError) (hi : i.wf size) : (raiseErr c i).wf size := by
  obtain ⟨herr, hcw, hstore, hevents⟩ := hi
  refine ⟨?_, hcw, hstore, hevents⟩
  rw [Instance.errWf, raiseErr_err, raiseErr_errCode]
  cases hset : i.err with
  | false => simpa using hc
  | true =>
    have hcode : i.errCode ≠ .noError := fun h => absurd (hset.symm.trans (herr.2 h)) nofun
    simpa using hcode

/-- Queued events must be legal; nothing else of the legal form reads Q (20_memory.md R102). -/
theorem emit_wf {l : List Event} (hl : ∀ e ∈ l, e.legal = true) (hi : i.wf size) : (emit l i).wf size := by
  obtain ⟨herr, hcw, hstore, hevents⟩ := hi
  refine ⟨herr, hcw, hstore, fun e he => ?_⟩
  rw [emit_queue, emit_out, List.append_assoc, List.mem_append, List.mem_append] at he
  rcases he with hqueue | hnew | hport
  · exact hevents e (List.mem_append_left _ hqueue)
  · exact hl e hnew
  · exact hevents e (List.mem_append_right _ hport)

/-- Construction clears CW_VALID, so any variant may be bound while CW keeps its bytes (42_switch_handle.md R300). -/
theorem construct_wf (v : Variant) (ch : Byte) (n0 n1 pin : Word) {a : List Byte} (ha : a.length = 10) (hi : i.wf size) :
    { construct v i with paramCh := ch, paramN0 := n0, paramN1 := n1, pin := pin, paramA := a }.wf size := by
  obtain ⟨herr, ⟨hcw, -⟩, ⟨hdbuf, -⟩, hevents⟩ := hi
  exact ⟨herr, ⟨hcw, fun hvalid => absurd hvalid nofun⟩, ⟨hdbuf, ha⟩, hevents⟩

theorem latchCw_wf {r : Option (List Byte)} (hr : ∀ w, r = some w → isCodeword w) (hv : i.variant ≠ .none)
    (hi : i.wf size) : (latchCw r i).wf size := by
  obtain ⟨herr, ⟨hcw, -⟩, hstore, hevents⟩ := hi
  cases r with
  | none => exact ⟨herr, ⟨hcw, fun hvalid => absurd hvalid nofun⟩, hstore, hevents⟩
  | some w =>
    have hw : isCodeword w := hr w rfl
    exact ⟨herr, ⟨.inr hw, fun _ => ⟨hw, hv⟩⟩, hstore, hevents⟩

/-- The values of R49 are legal with nothing presented, whatever the host has yet to do. -/
theorem wf_of_atReset (hreset : i.atReset) (hdbuf : i.dbuf = []) (hevents : i.out.events = []) : i.wf size := by
  obtain ⟨-, -, -, hcwValid, herr, hcode, -, -, -, -, -, -, -, -, hparamA, hcw, hqueue, -⟩ := hreset
  refine ⟨iff_of_true herr hcode, ⟨.inl hcw, fun hvalid => absurd (hcwValid.symm.trans hvalid) nofun⟩, ?_, ?_⟩
  · rw [Instance.storeWf, hdbuf, hparamA]
    exact ⟨⟨.nil, nofun⟩, rfl⟩
  · rw [Instance.eventsWf, hqueue, hevents]
    nofun

end

/-- What the encoder answers for a legal platform is a codeword (40_codeword_encoder.md R212). -/
theorem isCodeword_of_encodeCodeword {p : Params} {i : Instance} {on : Bool} {w : List Byte} (hp : p.wf = true)
    (ha : i.paramA.length = 10) (h : encodeCodeword p.familyTable i on = some w) : isCodeword w := by
  obtain ⟨hlength, hsymbols⟩ := codewordsAreTwelveTristateSymbols p i on w hp ha h
  exact ⟨hlength, fun c hc => mem_triAlphabet.2 (hsymbols c hc)⟩

theorem CommandEffect.wf {s : State} {i : Instr} {j : Instance} (h : CommandEffect s i j) (hp : s.params.wf = true)
    (hs : s.inst.wf s.params.dbufSize) : j.wf s.params.dbufSize := by
  cases h with
  | raised c _ hc =>
    refine raiseErr_wf ?_ hs
    rcases hc with rfl | ⟨rfl, -⟩ <;> decide
  | constructed v ch n0 n1 pin a l _ ha hl => exact emit_wf hl.1 (construct_wf v ch n0 n1 pin ha hs)
  | configured _ _ _ _ l _ _ _ _ _ _ hl => exact emit_wf hl.1 hs
  | latched on l _ hv hl =>
    have ha : s.inst.paramA.length = 10 := by
      obtain ⟨-, -, ⟨-, hlength⟩, -⟩ := hs
      exact hlength
    exact emit_wf hl.1 (latchCw_wf (fun w hw => isCodeword_of_encodeCodeword hp ha hw) hv hs)

theorem dbufSize_of_wf {p : Params} (h : p.wf = true) : p.dbufSize % 4 = 0 ∧ 16 ≤ p.dbufSize ∧ p.dbufSize ≤ 3840 := by
  simp only [Params.wf, Params.dbufSizeWf, Bool.and_eq_true, decide_eq_true_eq] at h
  obtain ⟨hsize, -⟩ := h
  exact hsize

/-- The host keeps an instance legal and presents nothing. -/
theorem keptByHost_wf {s : State} (hp : s.params.wf = true) (events : List Event) :
    KeptByHost s fun i => i.wf s.params.dbufSize ∧ i.out.events = events where
  recorded _ _ _ hi := hi
  raised _ _ hc hi := ⟨raiseErr_wf hc hi.1, hi.2⟩
  argumentsStored _ _ _ _ hi := hi
  wordStored i k v hk hi := by
    obtain ⟨⟨herr, hcw, ⟨hdbuf, ha⟩, hevents⟩, hport⟩ := hi
    obtain ⟨hsize, -, -⟩ := dbufSize_of_wf hp
    exact ⟨⟨herr, hcw, ⟨writeDbufWord_wf hdbuf (hk hsize), ha⟩, hevents⟩, hport⟩
  commandRun rest i j _ heffect hi := by
    obtain ⟨hwf, hport⟩ := hi
    rw [heffect.frame.out]
    exact ⟨heffect.wf hp hwf, hport⟩

/-! ### Legal platforms (O58) -/

theorem mem_instances {s : State} {i : Instance} : i ∈ s.instances ↔ i ∈ s.before ∨ i = s.inst ∨ i ∈ s.after := by
  rw [State.instances, List.mem_append, List.mem_cons]

theorem exists_mem_instances {s : State} {P : Instance → Prop} :
    (∃ i ∈ s.instances, P i) ↔ (∃ i ∈ s.before, P i) ∨ P s.inst ∨ ∃ i ∈ s.after, P i := by
  simp only [mem_instances, or_and_right, exists_or, exists_eq_left]

theorem turnUsed_wf {s : State} (hs : s.wf) : s.turnUsed.wf := hs

/-- A turn of the selected instance keeps the platform legal if it keeps the instance legal and sets LATCH exactly where
it presents INIT. -/
theorem withInst_wf {s : State} {j : Instance} {latch : Bool} (hs : s.wf) (hj : j.wf s.params.dbufSize)
    (hlatch : latch = true ↔ s.latch = true ∨ Event.init ∈ j.out.events)
    (hevents : Event.init ∈ s.inst.out.events → Event.init ∈ j.out.events) :
    { s.withInst j with latch := latch }.wf := by
  obtain ⟨hp, hinsts, hset⟩ := hs
  refine ⟨hp, fun i hi => ?_, ?_⟩
  · rcases mem_instances.1 hi with hbefore | rfl | hafter
    · exact hinsts i (mem_instances.2 (.inl hbefore))
    · exact hj
    · exact hinsts i (mem_instances.2 (.inr (.inr hafter)))
  · rw [exists_mem_instances] at hset ⊢
    refine hlatch.trans ?_
    rw [hset]
    constructor
    · rintro ((hbefore | hinst | hafter) | hnew)
      · exact .inl hbefore
      · exact .inr (.inl (hevents hinst))
      · exact .inr (.inr hafter)
      · exact .inr (.inl hnew)
    · rintro (hbefore | hnew | hafter)
      · exact .inl (.inl hbefore)
      · exact .inr hnew
      · exact .inl (.inr (.inr hafter))

theorem latch_of_init_presented {s : State} (hs : s.wf) (h : Event.init ∈ s.inst.out.events) : s.latch = true := by
  obtain ⟨-, -, hlatch⟩ := hs
  exact hlatch.2 ⟨s.inst, mem_instances.2 (.inr (.inl rfl)), h⟩

theorem inst_wf {s : State} (hs : s.wf) : s.inst.wf s.params.dbufSize := by
  obtain ⟨-, hinsts, -⟩ := hs
  exact hinsts s.inst (mem_instances.2 (.inr (.inl rfl)))

/-- A change of the selected instance that presents nothing. -/
theorem withInst_wf_of_events_eq {s : State} {j : Instance} (hs : s.wf) (hj : j.wf s.params.dbufSize)
    (hevents : j.out.events = s.inst.out.events) : (s.withInst j).wf := by
  refine withInst_wf (latch := s.latch) hs hj ?_ ?_ <;> rw [hevents]
  · exact (or_iff_left_of_imp (latch_of_init_presented hs)).symm
  · exact id

/-- A presentation moves an event from Q to the port, which the legal form counts together (10_state.md R48). -/
theorem present_wf {s : State} (hs : s.wf) : (present s).wf := by
  rcases present_cases_presenting s with h | ⟨e, rest, -, hqueue, h⟩ <;> rw [h]
  · exact hs
  obtain ⟨herr, hcw, hstore, hevents⟩ := inst_wf hs
  refine withInst_wf hs ⟨herr, hcw, hstore, fun e' he' => hevents e' ?_⟩ ?_ ?_
  · rw [hqueue]
    rw [presenting_queue, presenting_events] at he'
    simp only [List.mem_append, List.mem_cons] at he' ⊢
    tauto
  · have hport := latch_of_init_presented hs
    simp only [presenting_events, Bool.or_eq_true, decide_eq_true_eq, List.mem_append, List.mem_singleton,
      eq_comm (a := e)]
    tauto
  · rw [presenting_events]
    exact List.mem_append_left _

theorem powerOnReset_wf {s : State} (hs : s.wf) : (powerOnReset s).wf := by
  refine ⟨hs.1, fun i hi => ?_, iff_of_false nofun ?_⟩
  · have hreset := atReset_of_mem_powerOnReset_instances hi
    rw [powerOnReset_instances] at hi
    obtain ⟨old, -, rfl⟩ := List.mem_map.1 hi
    exact wf_of_atReset hreset rfl rfl
  · rintro ⟨i, hi, hinit⟩
    rw [powerOnReset_instances] at hi
    obtain ⟨old, -, rfl⟩ := List.mem_map.1 hi
    cases hinit

theorem selectInstance_wf {s : State} (k : Nat) (hs : s.wf) : (selectInstance k s).wf := by
  obtain ⟨hparams, hlatch, -⟩ := selectInstance_frame k s
  rw [State.wf, selectInstance_instances, hparams, hlatch]
  exact hs

/-- Settles O58: the legal form by turns; of the host's turn it is enough that each access keeps the instance legal. -/
theorem stepKeepsStateLegal : Obligations.StepKeepsStateLegal := by
  intro s t hs hstep
  have hu : s.turnUsed.wf := turnUsed_wf hs
  have hinst := inst_wf hu
  rcases step_cases hstep with ⟨-, hhost⟩ | ⟨-, rfl⟩ | ⟨-, rfl⟩ | ⟨-, rfl⟩ | ⟨k, -, rfl⟩ | ⟨-, rfl⟩
  · obtain ⟨j, rfl, hj, hevents⟩ := hostTurn_keeps (keptByHost_wf hu.1 _) ⟨hinst, rfl⟩ hhost
    exact withInst_wf_of_events_eq hu hj hevents
  · exact present_wf hu
  · rcases acknowledge_cases s.turnUsed with ⟨-, h⟩ | ⟨-, h⟩ <;> rw [h]
    · exact hu
    · exact withInst_wf_of_events_eq hu hinst rfl
  · rcases hangGpio_cases s.turnUsed with h | ⟨-, h⟩ <;> rw [h]
    · exact hu
    · exact withInst_wf_of_events_eq hu hinst rfl
  · exact selectInstance_wf k hu
  · exact powerOnReset_wf hu

/-- Settles O57: the default parameters are in range, and every instance of the platform is a freshly reset one. -/
theorem resetStateIsLegal : Obligations.ResetStateIsLegal := by
  refine ⟨rfl, fun i hi => ?_, iff_of_false nofun ?_⟩
  · obtain ⟨epoch, rfl⟩ := eq_reset_of_mem_reset_instances hi
    exact wf_of_atReset (Instance.reset_atReset epoch) rfl rfl
  · rintro ⟨i, hi, hinit⟩
    obtain ⟨epoch, rfl⟩ := eq_reset_of_mem_reset_instances hi
    cases hinit

/-! ### An idle instance (10_state.md R34, R48) -/

theorem busy_iff (i : Instance) : i.busy = true ↔ i.queue ≠ [] ∨ i.await = true := by
  simp [Instance.busy]

theorem idle_of_not_busy {i : Instance} (h : i.busy = false) : i.queue = [] ∧ i.await = false := by
  have hidle : ¬ (i.queue ≠ [] ∨ i.await = true) := by
    rw [← busy_iff, h]
    nofun
  rw [not_or, not_not, Bool.not_eq_true] at hidle
  exact hidle

theorem queue_eq_nil_of_not_busy {i : Instance} (h : i.busy = false) : i.queue = [] := (idle_of_not_busy h).1

theorem await_eq_false_of_not_busy {i : Instance} (h : i.busy = false) : i.await = false := (idle_of_not_busy h).2

/-! ### One bring-up per power-on (O60) -/

/-- What one instance alone may hold of INIT while LATCH has the value given: at most one pending or presented, and one
presented exactly while LATCH is set. -/
def Instance.SingleInit (latch : Bool) (i : Instance) : Prop :=
  i.initCount ≤ 1 ∧ (latch = true ↔ Event.init ∈ i.out.events)

theorem singleBringUp_iff {s : State} :
    s.singleBringUp ↔ s.before = [] ∧ s.after = [] ∧ s.inst.SingleInit s.latch := Iff.rfl

theorem initCount_eq (i : Instance) : i.initCount = i.queue.count .init + i.out.events.count .init := by
  rw [Instance.initCount, List.count_append]

/-- The write that runs a command is held until Q is empty (20_memory.md R90), so an INIT it queues is the only one pending;
and it queues one only while LATCH = 0, when none has been presented. -/
theorem CommandEffect.singleInit {s : State} {i : Instr} {j : Instance} (h : CommandEffect s i j)
    (hqueue : s.inst.queue = []) (hs : s.inst.SingleInit s.latch) : j.SingleInit s.latch := by
  obtain ⟨hcount, hlatch⟩ := hs
  obtain ⟨l, ⟨-, hnew⟩, hgrown⟩ := h.queue
  rw [initCount_eq, hqueue, List.count_nil, Nat.zero_add] at hcount
  rw [hqueue, List.nil_append] at hgrown
  unfold Instance.SingleInit
  rw [initCount_eq, h.frame.out, hgrown]
  refine ⟨?_, hlatch⟩
  cases hset : s.latch with
  | true =>
    rw [hset, if_pos rfl] at hnew
    omega
  | false =>
    have hnone : s.inst.out.events.count .init = 0 :=
      List.count_eq_zero.2 fun hmem => absurd (hset.symm.trans (hlatch.2 hmem)) nofun
    rw [hset, if_neg nofun] at hnew
    omega

theorem keptByHost_singleInit (s : State) : KeptByHost s (Instance.SingleInit s.latch) where
  recorded _ _ _ hi := hi
  raised _ _ _ hi := hi
  argumentsStored _ _ _ _ hi := hi
  wordStored _ _ _ _ hi := hi
  commandRun _ _ _ hidle heffect hi := heffect.singleInit (queue_eq_nil_of_not_busy hidle) hi

/-- A presentation moves an INIT from Q to the port and sets LATCH, so it makes no second one. -/
theorem present_singleInit {s : State} (hs : s.inst.SingleInit s.latch) :
    (present s).inst.SingleInit (present s).latch := by
  rcases present_cases_presenting s with h | ⟨e, rest, -, hqueue, h⟩ <;> rw [h]
  · exact hs
  obtain ⟨hcount, hlatch⟩ := hs
  rw [initCount_eq, hqueue, List.count_cons] at hcount
  refine ⟨?_, ?_⟩
  · show (s.inst.presenting e rest).initCount ≤ 1
    rw [initCount_eq, presenting_queue, presenting_events, List.count_append, List.count_singleton]
    omega
  · show (s.latch || decide (e = .init)) = true ↔ Event.init ∈ (s.inst.presenting e rest).out.events
    rw [presenting_events, Bool.or_eq_true, decide_eq_true_eq, List.mem_append, List.mem_singleton, hlatch,
      eq_comm (a := e)]

/-- A platform of one instance has no other to select. -/
theorem selectInstance_of_single {s : State} (hbefore : s.before = []) (hafter : s.after = []) (k : Nat) :
    selectInstance k s = s := by
  obtain ⟨params, before, inst, after, latch, turns⟩ := s
  subst hbefore hafter
  cases k <;> rfl

/-- Settles O60: with one instance LATCH is its own, and the hold of 20_memory.md R90 keeps a command from queuing an INIT
beside a pending one. -/
theorem singleInstanceBringsUpAtMostOnce : Obligations.SingleInstanceBringsUpAtMostOnce := by
  intro s t hs hstep
  rw [singleBringUp_iff] at hs ⊢
  obtain ⟨hbefore, hafter, hinit⟩ := hs
  rcases step_cases hstep with ⟨-, hhost⟩ | ⟨-, rfl⟩ | ⟨-, rfl⟩ | ⟨-, rfl⟩ | ⟨k, -, rfl⟩ | ⟨-, rfl⟩
  · obtain ⟨j, rfl, hj⟩ := hostTurn_keeps (keptByHost_singleInit s.turnUsed) hinit hhost
    exact ⟨hbefore, hafter, hj⟩
  · obtain ⟨hbefore', hafter'⟩ := present_neighbours s.turnUsed
    exact ⟨hbefore'.trans hbefore, hafter'.trans hafter, present_singleInit (s := s.turnUsed) hinit⟩
  · rcases acknowledge_cases s.turnUsed with ⟨-, h⟩ | ⟨-, h⟩ <;> rw [h] <;> exact ⟨hbefore, hafter, hinit⟩
  · rcases hangGpio_cases s.turnUsed with h | ⟨-, h⟩ <;> rw [h] <;> exact ⟨hbefore, hafter, hinit⟩
  · rw [selectInstance_of_single (s := s.turnUsed) hbefore hafter]
    exact ⟨hbefore, hafter, hinit⟩
  · refine ⟨List.map_eq_nil_iff.2 hbefore, List.map_eq_nil_iff.2 hafter, Nat.zero_le 1, iff_of_false nofun nofun⟩

/-- Settles O59: a freshly reset instance has nothing pending and nothing presented, and it is the only one. -/
theorem resetHasNoBringUp : Obligations.ResetHasNoBringUp :=
  ⟨rfl, rfl, rfl, rfl, Nat.zero_le 1, iff_of_false nofun nofun⟩

end Sys2Proof.Machine
end

section
/-! What one access of the host does to the registers and the data buffer, and the STATUS word (10_state.md R31 to R38; 20_memory.md
R80 to R88; 30_encoding.md R121). -/

namespace Sys2Proof.Machine

/-! ### CMD writes (30_encoding.md R121) -/

theorem runCommand_of_decode {w : Word} {i : Instr} (h : decode w = .ok i) (s : State) : runCommand w s = exec i s := by
  rw [runCommand, h]

/-- Settles O4: the write that BUSY = 0 lets through runs the command its word decodes to. -/
theorem stepRunsDecodedCommand : Obligations.StepRunsDecodedCommand := by
  intro s w i rest habout hbusy hdecode
  rw [step_cmdWrite habout hbusy, runCommand_of_decode hdecode]

/-- Settles O5: the placed word is the host's next access, the turn is the host's, and the placing empties Q and clears AWAIT. -/
theorem placedCommandRunsNext : Obligations.PlacedCommandRunsNext := by
  intro s i
  have hword : BitVec.ofNat 32 ((encode i).toNat % 2 ^ 32) = encode i := by
    rw [Nat.mod_eq_of_lt (encode i).isLt, BitVec.ofNat_toNat, BitVec.setWidth_eq]
  have habout : (s.withFetchWord 32 (encode i).toNat).hostAbout (.write 0x000 (encode i)) s.inst.out.host :=
    ⟨rfl, congrArg (fun w => Access.write 0x000 w :: s.inst.out.host) hword⟩
  exact stepRunsDecodedCommand _ _ i _ habout rfl (decode_encode i)

/-- Settles O1: seven words are those of their commands, and three fail one of the two checks of R121. -/
theorem decoderReadsTableWords : Obligations.DecoderReadsTableWords :=
  ⟨decode_encode .initA, decode_encode .txInit, decode_encode .enableTransmit, decode_encode .setProtocol,
    decode_encode .switchOn, decode_encode .encodeOff, decode_encode .sendBytes, rfl, rfl, rfl⟩

/-! ### Reads (20_memory.md R82, R88) -/

theorem misaligned_not_mem_registerMap (offset : Nat) : (offset, Target.misaligned) ∉ registerMap := by
  simp [registerMap]

theorem targetOf_ne_misaligned {size offset : Nat} (h : offset % 4 = 0) : targetOf size offset ≠ .misaligned := by
  rw [targetOf, if_neg (not_not.2 h)]
  split
  · next t ht =>
    rintro rfl
    obtain ⟨l₁, l₂, hmap, -⟩ := List.lookup_eq_some_iff.1 ht
    have hmem : (offset, Target.misaligned) ∈ l₁ ++ (offset, .misaligned) :: l₂ :=
      List.mem_append_right _ List.mem_cons_self
    rw [← hmap] at hmem
    exact misaligned_not_mem_registerMap offset hmem
  · split <;> nofun

theorem afterRead_of_ne_misaligned {t : Target} (h : t ≠ .misaligned) (i : Instance) : afterRead i t = i := by
  rcases afterRead_cases i t with heq | ⟨ht, -⟩
  · exact heq
  · exact absurd ht h

/-- Settles O10: the read of an aligned offset is only recorded, and the twelve offsets lead to their registers. -/
theorem alignedReadsReturnRegisterValues : Obligations.AlignedReadsReturnRegisterValues := by
  refine ⟨fun s offset rest hoffset haligned habout => ?_, fun latch i size offset v hmem => ?_⟩
  · rw [step_read hoffset habout, mmioRead, hostMoved_params, afterRead_of_ne_misaligned (targetOf_ne_misaligned haligned),
      readTarget_hostMoved]
    rfl
  · simp only [List.mem_cons, Prod.mk.injEq, List.not_mem_nil, or_false] at hmem
    rcases hmem with ⟨rfl, rfl⟩ | ⟨rfl, rfl⟩ | ⟨rfl, rfl⟩ | ⟨rfl, rfl⟩ | ⟨rfl, rfl⟩ | ⟨rfl, rfl⟩ | ⟨rfl, rfl⟩
      | ⟨rfl, rfl⟩ | ⟨rfl, rfl⟩ | ⟨rfl, rfl⟩ | ⟨rfl, rfl⟩ | ⟨rfl, rfl⟩
    all_goals rfl

/-! ### Writes (10_state.md R31; 20_memory.md R82, R87) -/

theorem mmioWrite_arg0 (v : Word) (s : State) : mmioWrite 0x008 v s = s.withInst { s.inst with arg0 := v } := rfl

theorem mmioWrite_arg1 (v : Word) (s : State) : mmioWrite 0x00C v s = s.withInst { s.inst with arg1 := v } := rfl

theorem mmioWrite_arg2 (v : Word) (s : State) : mmioWrite 0x010 v s = s.withInst { s.inst with arg2 := v } := rfl

/-- A write to any offset but CMD's, once BUSY = 0 (R82, R90). -/
theorem step_write_of_ne_zero {s : State} {offset : Nat} {v : Word} {rest : List Access} (hoffset : offset < 0x1000)
    (hne : offset ≠ 0) (habout : s.hostAbout (.write offset v) rest) (hbusy : s.inst.busy = false) :
    step s = .next (mmioWrite offset v (s.hostMoved rest)) :=
  step_write hoffset (targetOf_ne_cmd hne) habout hbusy

/-- Settles O11: each offset leads to its argument register. -/
theorem argumentRegisterWritesStoreTheWord : Obligations.ArgumentRegisterWritesStoreTheWord := by
  refine fun s v rest hbusy => ⟨fun habout => ?_, fun habout => ?_, fun habout => ?_⟩
  · rw [step_write_of_ne_zero (by decide) (by decide) habout hbusy, mmioWrite_arg0]
    rfl
  · rw [step_write_of_ne_zero (by decide) (by decide) habout hbusy, mmioWrite_arg1]
    rfl
  · rw [step_write_of_ne_zero (by decide) (by decide) habout hbusy, mmioWrite_arg2]
    rfl

theorem mmioWrite_dbuf {s : State} {k : Nat} (hk : 4 * k < s.params.dbufSize) (v : Word) :
    mmioWrite (0x100 + 4 * k) v s = s.withInst { s.inst with dbuf := writeDbufWord s.inst.dbuf (4 * k) v } := by
  rw [mmioWrite, targetOf_dbuf hk]
  rfl

/-- The bytes of the data buffer after the write of a word: its four lanes, and the old bytes everywhere else (R85, R87). -/
theorem dbufByte_writeDbufWord (i : Instance) (k : Nat) (v : Word) (n : Nat) :
    { i with dbuf := writeDbufWord i.dbuf k v }.dbufByte n =
      if k ≤ n ∧ n < k + 4 then laneOf v (n - k) else i.dbufByte n := by
  rw [Instance.dbufByte, readCell_writeDbufWord]
  split <;> rfl

/-- Settles O12: the word leads to the data buffer, where its lanes take four indices and leave the others. -/
theorem dbufWordWriteStoresFourBytes : Obligations.DbufWordWriteStoresFourBytes := by
  intro s k v rest hp hk habout hbusy
  obtain ⟨-, -, hsize⟩ := dbufSize_of_wf hp
  refine ⟨_, step_write_of_ne_zero (by omega) (by omega) habout hbusy, ?_⟩
  rw [mmioWrite_dbuf (s := s.hostMoved rest) hk]
  refine ⟨fun j hj => ?_, fun m hm => ?_, rfl⟩
  · rw [withInst_inst, dbufByte_writeDbufWord, if_pos (by omega), Nat.add_sub_cancel_left]
    rfl
  · rw [withInst_inst, dbufByte_writeDbufWord, if_neg (by omega)]
    rfl

/-- Settles O15: the offset is tested before BUSY, for a read and for a write. -/
theorem accessOutsideWindowFaults : Obligations.AccessOutsideWindowFaults := by
  rintro s offset v rest hoffset (⟨hturn, hhost⟩ | ⟨hturn, hhost⟩)
  · rw [step_of_nextTurn_host hturn, hostTurn, turnUsed_inst, hhost]
    exact if_neg (Nat.not_lt.2 hoffset)
  · rw [step_of_nextTurn_host hturn, hostTurn, turnUsed_inst, hhost]
    exact if_pos hoffset

/-! ### The STATUS word (10_state.md R33 to R38) -/

/-- The four flags stand below ERRCODE, one bit each. -/
theorem getLsbD_statusWord (latch : Bool) (i : Instance) :
    (statusWord latch i).getLsbD 0 = i.busy ∧ (statusWord latch i).getLsbD 1 = i.cwValid
      ∧ (statusWord latch i).getLsbD 2 = latch ∧ (statusWord latch i).getLsbD 3 = i.err := by
  simp only [statusWord, BitVec.getLsbD_append, BitVec.getLsbD_ofBool]
  simp

/-- The fields above the flags, each cut off from the fields below it. -/
theorem extractLsb'_statusWord (latch : Bool) (i : Instance) :
    (statusWord latch i).extractLsb' 4 4 = errCodeBits i.errCode
      ∧ (statusWord latch i).extractLsb' 8 3 = variantBits i.variant ∧ (statusWord latch i).extractLsb' 11 21 = 0 := by
  have hflags {start len : Nat} (h : 4 ≤ start) :
      (statusWord latch i).extractLsb' start len =
        (0#21 ++ variantBits i.variant ++ errCodeBits i.errCode).extractLsb' (start - 4) len := by
    unfold statusWord
    rw [BitVec.extractLsb'_append_eq_of_le (by omega), BitVec.extractLsb'_append_eq_of_le (by omega),
      BitVec.extractLsb'_append_eq_of_le (by omega), BitVec.extractLsb'_append_eq_of_le (by omega)]
    rfl
  refine ⟨?_, ?_, ?_⟩
  · rw [hflags (by decide)]
    exact BitVec.extractLsb'_append_eq_right
  · rw [hflags (by decide), BitVec.extractLsb'_append_eq_of_le (by decide)]
    exact BitVec.extractLsb'_append_eq_right
  · rw [hflags (by decide), BitVec.extractLsb'_append_eq_of_le (by decide), BitVec.extractLsb'_append_eq_of_le (by decide)]
    rfl

/-- Settles O14: the word is put together from its fields, each read back at its place. -/
theorem statusWordLayout : Obligations.StatusWordLayout := by
  refine ⟨fun latch i => ?_, rfl, rfl⟩
  obtain ⟨hbusy, hcwValid, hlatch, herr⟩ := getLsbD_statusWord latch i
  exact ⟨by rw [hbusy, busy_iff], hcwValid, hlatch, herr, extractLsb'_statusWord latch i⟩

end Sys2Proof.Machine
end

section
/-! Runs with no turn listed, in the model's default order (log 2): the queue drains to the event port, and a SWITCH_ON that
finds its instance idle transmits its waveform (10_state.md R48; 20_memory.md R93; 42_switch_handle.md R311, R315). -/

namespace Sys2Proof.Machine

/-! ### Several steps -/

theorem stepN_succ {s t : State} (h : step s = .next t) (k : Nat) : stepN (k + 1) s = stepN k t := by
  rw [stepN, h]

/-- A run is made of its parts. -/
theorem stepN_add {s t : State} {m : Nat} (n : Nat) (h : stepN m s = .next t) : stepN (m + n) s = stepN n t := by
  induction m generalizing s with
  | zero =>
    cases h
    rw [Nat.zero_add]
  | succ m ih =>
    rw [stepN] at h
    rw [Nat.succ_add]
    cases hstep : step s with
    | next u =>
      rw [hstep] at h
      rw [stepN_succ hstep]
      exact ih h
    | fault => rw [hstep] at h; cases h
    | refused => rw [hstep] at h; cases h

/-! ### The sequencer and the capability (10_state.md R48) -/

theorem present_of_head {s : State} {e : Event} {rest : List Event} (hfree : s.inst.await = false)
    (hqueue : s.inst.queue = e :: rest) :
    present s = { s.withInst (s.inst.presenting e rest) with latch := s.latch || decide (e = .init) } := by
  rw [present, hfree, hqueue]
  rfl

theorem present_of_waiting {s : State} (h : s.inst.await = true ∨ s.inst.queue = []) : present s = s := by
  rcases present_cases s with heq | ⟨e, rest, hfree, hqueue, -⟩
  · exact heq
  · rw [hfree, hqueue] at h
    exact absurd h (by simp)

theorem acknowledge_of_answering {s : State} (h : s.inst.out.hung = false) :
    acknowledge s = s.withInst { s.inst with await := false } := by
  rw [acknowledge, if_neg (by simp [h])]

/-- Settles O16: a presentation with and without an event it may present, and an acknowledgement of a capability that answers. -/
theorem sequencerPresentsThenAwaitsAcknowledgement : Obligations.SequencerPresentsThenAwaitsAcknowledgement := by
  refine ⟨fun s e rest hturn hfree hqueue => ?_, fun s hturn hwaiting => ?_, fun s hturn hanswers => ?_⟩
  · rw [step_eq_takeTurn, hturn, takeTurn, present_of_head (s := s.turnUsed) hfree hqueue]
    rfl
  · rw [step_eq_takeTurn, hturn, takeTurn, present_of_waiting (s := s.turnUsed) hwaiting]
  · rw [step_eq_takeTurn, hturn, takeTurn, acknowledge_of_answering (s := s.turnUsed) hanswers]
    rfl

/-! ### The default order of turns (log 2) -/

section
variable {s : State}

theorem turnUsed_of_turns_nil (h : s.turns = []) : s.turnUsed = s := by
  rw [State.turnUsed, h]
  exact congrArg (fun turns => { s with turns := turns }) h.symm

theorem nextTurn_of_turns_nil (h : s.turns = []) : nextTurn s = defaultTurn s.inst := by
  rw [nextTurn, h]

theorem step_of_turns_nil (h : s.turns = []) : step s = takeTurn (defaultTurn s.inst) s := by
  rw [step_eq_takeTurn, nextTurn_of_turns_nil h, turnUsed_of_turns_nil h]

theorem hostMoved_of_turns_nil (h : s.turns = []) (rest : List Access) : s.hostMoved rest = s.withHost rest :=
  congrArg (fun u => State.withHost u rest) (turnUsed_of_turns_nil h)

/-- An idle instance's host moves next. -/
theorem hostAbout_of_idle {a : Access} {rest : List Access} (hturns : s.turns = []) (hidle : s.inst.busy = false)
    (hhost : s.inst.out.host = a :: rest) : s.hostAbout a rest := by
  refine ⟨?_, hhost⟩
  rw [nextTurn_of_turns_nil hturns, defaultTurn, queue_eq_nil_of_not_busy hidle, await_eq_false_of_not_busy hidle]
  rfl

end

/-! ### The queue drains (20_memory.md R93 (c)) -/

/-- The state in which the whole queue has been presented and acknowledged. -/
def State.drained (s : State) : State :=
  { s with
    latch := s.latch || decide (Event.init ∈ s.inst.queue)
    inst := { s.inst with queue := [], out := { s.inst.out with events := s.inst.out.events ++ s.inst.queue } } }

/-- The state in which the head of the queue has been presented and acknowledged. -/
def State.headSent (s : State) (e : Event) (rest : List Event) : State :=
  { s with
    latch := s.latch || decide (e = .init)
    inst := { s.inst with queue := rest, out := { s.inst.out with events := s.inst.out.events ++ [e] } } }

section
variable {s : State}

theorem drained_of_queue_nil (h : s.inst.queue = []) : s.drained = s := by
  obtain ⟨params, before, inst, after, latch, turns⟩ := s
  cases inst
  simp_all [State.drained]

/-- Draining is sending the head and then draining the rest. -/
theorem drained_headSent {e : Event} {rest : List Event} (hqueue : s.inst.queue = e :: rest) :
    (s.headSent e rest).drained = s.drained := by
  simp [State.drained, State.headSent, hqueue, Bool.or_assoc, eq_comm (a := e)]

/-- One event takes two steps: its presentation and its acknowledgement. -/
theorem stepN_two_headSent {e : Event} {rest : List Event} (hturns : s.turns = []) (hfree : s.inst.await = false)
    (hanswers : s.inst.out.hung = false) (hqueue : s.inst.queue = e :: rest) :
    stepN 2 s = .next (s.headSent e rest) := by
  have hpresents : defaultTurn s.inst = .sequencer := by simp [defaultTurn, hfree, hqueue]
  have hacknowledges : defaultTurn (s.inst.presenting e rest) = .gpio := by
    simp [defaultTurn, Instance.presenting, hanswers]
  have hfirst : step s = .next { s.withInst (s.inst.presenting e rest) with latch := s.latch || decide (e = .init) } := by
    rw [step_of_turns_nil hturns, hpresents, takeTurn, present_of_head hfree hqueue]
  rw [stepN_succ hfirst]
  refine (stepN_succ (t := s.headSent e rest) ?_ 0)
  rw [step_of_turns_nil (s := { s.withInst (s.inst.presenting e rest) with latch := _ }) hturns]
  refine (congrArg (fun turn => takeTurn turn _) hacknowledges).trans ?_
  rw [takeTurn, acknowledge_of_answering (s := { s.withInst (s.inst.presenting e rest) with latch := _ }) hanswers]
  simp [State.headSent, State.withInst, Instance.presenting, hfree]

end

/-- Settles O17: by induction on the queue, two steps for its head. -/
theorem queueDrainsToPortInOrder : Obligations.QueueDrainsToPortInOrder := by
  intro s hturns hfree hanswers
  show stepN (2 * s.inst.queue.length) s = .next s.drained
  induction hqueue : s.inst.queue generalizing s with
  | nil => rw [drained_of_queue_nil hqueue]; rfl
  | cons e rest ih =>
    have hlength : 2 * (e :: rest).length = 2 + 2 * rest.length := by rw [List.length_cons]; omega
    rw [hlength, stepN_add _ (stepN_two_headSent hturns hfree hanswers hqueue), ← drained_headSent hqueue]
    exact ih (s.headSent e rest) hturns hfree hanswers rfl

/-! ### SWITCH_ON by the host of an idle instance (42_switch_handle.md R311) -/

theorem init_not_mem_sendTri (c : Snapshot) (w : List Byte) : Event.init ∉ sendTri c w := fun hmem =>
  (mem_sendTri legal_and_ne_init_of_mem_pulsePair w _ hmem).2 rfl

/-- The state in which the waveform of codeword `w` has been queued and the host has moved on. -/
def State.waveformQueued (s : State) (w : List Byte) (rest : List Access) : State :=
  (s.withHost rest).withInst (emit (sendTri (snapshot s.inst) w) (latchCw (some w) (s.withHost rest).inst))

/-- The state in which the waveform of codeword `w` has been transmitted. -/
def State.transmitted (s : State) (w : List Byte) (rest : List Access) : State :=
  { s with inst := { s.inst with
    cw := w, cwValid := true
    out := { s.inst.out with host := rest, events := s.inst.out.events ++ sendTri (snapshot s.inst) w } } }

section
variable {s : State} {w : List Byte} {rest : List Access}

theorem step_switchOn (hturns : s.turns = []) (hidle : s.inst.busy = false)
    (hhost : s.inst.out.host = .write 0x000 0x00000010 :: rest) (hbound : s.inst.variant ≠ .none)
    (hw : encodeCodeword s.params.familyTable s.inst true = some w) : step s = .next (s.waveformQueued w rest) := by
  have hdecode : decode 0x00000010 = .ok .switchOn := decode_encode .switchOn
  rw [stepRunsDecodedCommand s _ _ rest (hostAbout_of_idle hturns hidle hhost) hidle hdecode,
    hostMoved_of_turns_nil hturns, exec_switchOn, switchTo_of_some (s := s.withHost rest) hbound hw]
  rfl

/-- Q was empty, so it holds the waveform alone; no event of it is INIT, so LATCH stays. -/
theorem drained_waveformQueued (hqueue : s.inst.queue = []) :
    (s.waveformQueued w rest).drained = s.transmitted w rest := by
  simp [State.drained, State.waveformQueued, State.transmitted, State.withHost, State.withInst, emit, latchCw, hqueue,
    init_not_mem_sendTri]

end

/-- Settles O40: the command queues its waveform in one step, and the queue drains two steps to an event. -/
theorem switchOnTransmitsItsWaveform : Obligations.SwitchOnTransmitsItsWaveform := by
  intro s w rest hturns hidle hanswers hhost hbound hw
  have hqueue : s.inst.queue = [] := queue_eq_nil_of_not_busy hidle
  have hqueued : (s.waveformQueued w rest).inst.queue = sendTri (snapshot s.inst) w :=
    congrArg (· ++ sendTri (snapshot s.inst) w) hqueue
  have hdrain : stepN (2 * (s.waveformQueued w rest).inst.queue.length) (s.waveformQueued w rest) =
      .next (s.waveformQueued w rest).drained :=
    queueDrainsToPortInOrder _ hturns (await_eq_false_of_not_busy (i := s.inst) hidle) hanswers
  rw [hqueued, drained_waveformQueued hqueue] at hdrain
  rw [Nat.add_comm, stepN_succ (step_switchOn hturns hidle hhost hbound hw)]
  exact hdrain

/-! ### Two SWITCH_ONs (R315) -/

/-- Settles O36: the dispatch of R208 reads VARIANT and the stored parameters. -/
theorem encoderReadsOnlyStoredParameters : Obligations.EncoderReadsOnlyStoredParameters := by
  intro table i j on hvariant hparamA hparamCh hparamN0 hparamN1
  rw [encodeCodeword, encodeCodeword, hvariant, hparamA, hparamCh, hparamN0, hparamN1]

theorem snapshot_congr {i j : Instance} (hpin : i.pin = j.pin) (hpulse : i.pulse = j.pulse)
    (hcount : i.repeatCount = j.repeatCount) (hprotocol : i.protocol = j.protocol) : snapshot i = snapshot j := by
  rw [snapshot, snapshot, hpin, hpulse, hcount, hprotocol]

/-- The second SWITCH_ON finds VARIANT, the parameters and the configuration as the first one did. -/
theorem stepN_two_switchOns {s : State} {w : List Byte} {rest : List Access} (hturns : s.turns = [])
    (hidle : s.inst.busy = false) (hanswers : s.inst.out.hung = false)
    (hhost : s.inst.out.host = .write 0x000 0x00000010 :: .write 0x000 0x00000010 :: rest)
    (hbound : s.inst.variant ≠ .none) (hw : encodeCodeword s.params.familyTable s.inst true = some w) :
    stepN (2 * (1 + 2 * (sendTri (snapshot s.inst) w).length)) s =
      .next ((s.transmitted w (.write 0x000 0x00000010 :: rest)).transmitted w rest) := by
  rw [Nat.two_mul, stepN_add _ (switchOnTransmitsItsWaveform s w _ hturns hidle hanswers hhost hbound hw)]
  exact switchOnTransmitsItsWaveform (s.transmitted w (.write 0x000 0x00000010 :: rest)) w rest hturns hidle hanswers rfl
    hbound ((encoderReadsOnlyStoredParameters _ _ _ true rfl rfl rfl rfl rfl).trans hw)

/-- Settles O39: the encoder and the snapshot read only what the two states agree on, and the second transmission repeats the
first one's events. -/
theorem repeatedSwitchOnRepeatsTheWaveform : Obligations.RepeatedSwitchOnRepeatsTheWaveform := by
  refine ⟨fun s s' htable hvariant hparamA hparamCh hparamN0 hparamN1 hpin hpulse hcount hprotocol hbound => ?_,
    fun s w rest hturns hidle hanswers hhost hbound hw => ?_⟩
  · have hbound' : s'.inst.variant ≠ .none := hvariant ▸ hbound
    have hencode : encodeCodeword s'.params.familyTable s'.inst true = encodeCodeword s.params.familyTable s.inst true := by
      rw [← htable]
      exact (encoderReadsOnlyStoredParameters _ _ _ true hvariant hparamA hparamCh hparamN0 hparamN1).symm
    have hsnapshot : snapshot s'.inst = snapshot s.inst := (snapshot_congr hpin hpulse hcount hprotocol).symm
    cases hw : encodeCodeword s.params.familyTable s.inst true with
    | none =>
      rw [hw] at hencode
      refine ⟨_, _, [], exec_switchOn s, exec_switchOn s', ?_⟩
      rw [withInst_inst, withInst_inst, switchTo_of_none hbound hw, switchTo_of_none hbound' hencode]
      exact ⟨(List.append_nil _).symm, (List.append_nil _).symm, rfl, nofun, fun _ => ⟨rfl, rfl⟩⟩
    | some w =>
      rw [hw] at hencode
      refine ⟨_, _, sendTri (snapshot s.inst) w, exec_switchOn s, exec_switchOn s', ?_⟩
      rw [withInst_inst, withInst_inst, switchTo_of_some hbound hw, switchTo_of_some hbound' hencode, hsnapshot]
      exact ⟨rfl, rfl, rfl, fun _ => rfl, nofun⟩
  · rw [stepN_two_switchOns hturns hidle hanswers hhost hbound hw]
    have hsame : snapshot (s.transmitted w (.write 0x000 0x00000010 :: rest)).inst = snapshot s.inst :=
      snapshot_congr rfl rfl rfl rfl
    rw [State.transmitted, hsame, ← List.append_assoc]
    rfl

end Sys2Proof.Machine
end

section
/-! Measures of a waveform: its DELAYs, its length, and the sum of its DELAY operands (41_pulse_transmitter.md R252, R255, R256,
R266; 70_reset_and_hazards.md R513). -/

namespace Sys2Proof.Machine

/-! ### Bit 0, bit 1 and sync as one part of the protocol's row (R253, R254) -/

/-- The pair of one part of the protocol's row, or nothing for a protocol without a row. -/
def rowPulses (c : Snapshot) (part : Multipliers → Nat × Nat) : List Event :=
  (protocolRow c.protocol).elim [] fun m => pulsePair c (part m).1 (part m).2

section
variable (c : Snapshot)

theorem bit0Pulses_eq_rowPulses : bit0Pulses c = rowPulses c Multipliers.bit0 := by
  unfold bit0Pulses rowPulses
  cases protocolRow c.protocol <;> rfl

theorem bit1Pulses_eq_rowPulses : bit1Pulses c = rowPulses c Multipliers.bit1 := by
  unfold bit1Pulses rowPulses
  cases protocolRow c.protocol <;> rfl

theorem syncPulses_eq_rowPulses : syncPulses c = rowPulses c Multipliers.sync := by
  unfold syncPulses rowPulses
  cases protocolRow c.protocol <;> rfl

end

/-! ### Pin -1 keeps the DELAYs alone (R252) -/

/-- The same configuration on the disabled pin. -/
def Snapshot.disabled (c : Snapshot) : Snapshot := { c with pin := 0xFFFFFFFF }

theorem delaysOf_append (l k : List Event) : delaysOf (l ++ k) = delaysOf l ++ delaysOf k := List.filter_append ..

theorem delaysOf_flatten (l : List (List Event)) : delaysOf l.flatten = (l.map delaysOf).flatten := List.filter_flatten

section
variable (c : Snapshot)

theorem delaysOf_pulsePair (hi lo : Nat) : delaysOf (pulsePair c hi lo) = pulsePair c.disabled hi lo := by
  rw [pulsePair_of_disabled (c := c.disabled) rfl]
  by_cases hpin : c.pin.toInt = -1
  · rw [pulsePair_of_disabled hpin]
    rfl
  · rw [pulsePair_of_enabled hpin]
    rfl

theorem delaysOf_rowPulses (part : Multipliers → Nat × Nat) :
    delaysOf (rowPulses c part) = rowPulses c.disabled part := by
  rw [rowPulses, rowPulses, show c.disabled.protocol = c.protocol from rfl]
  cases protocolRow c.protocol with
  | none => rfl
  | some m => exact delaysOf_pulsePair c _ _

theorem delaysOf_triPulses (b : Byte) : delaysOf (triPulses c b) = triPulses c.disabled b := by
  unfold triPulses
  split
  · rw [delaysOf_append, delaysOf_pulsePair]
  split
  · rw [delaysOf_append, delaysOf_pulsePair]
  split
  · rw [delaysOf_append, delaysOf_pulsePair, delaysOf_pulsePair]
  · rfl

theorem delaysOf_binPulses (b : Byte) : delaysOf (binPulses c b) = binPulses c.disabled b := by
  unfold binPulses
  split
  · rw [bit0Pulses_eq_rowPulses, delaysOf_rowPulses, bit0Pulses_eq_rowPulses]
  split
  · rw [bit1Pulses_eq_rowPulses, delaysOf_rowPulses, bit1Pulses_eq_rowPulses]
  · rfl

theorem delaysOf_repeatFrame (body : List Event) :
    delaysOf (repeatFrame c body) = repeatFrame c.disabled (delaysOf body) := by
  rw [repeatFrame, delaysOf_flatten, List.map_replicate, delaysOf_append, syncPulses_eq_rowPulses,
    delaysOf_rowPulses, ← syncPulses_eq_rowPulses]
  rfl

/-- A body is its symbols' pulses one after the other, and so are its DELAYs. -/
theorem delaysOf_flatten_map {f g : Byte → List Event} (h : ∀ b, delaysOf (f b) = g b) (s : List Byte) :
    delaysOf (s.map f).flatten = (s.map g).flatten := by
  rw [delaysOf_flatten, List.map_map]
  exact congrArg List.flatten (List.map_congr_left fun b _ => h b)

theorem delaysOf_sendTri (s : List Byte) : delaysOf (sendTri c s) = sendTri c.disabled s := by
  rw [sendTri_eq, sendTri_eq, delaysOf_repeatFrame, delaysOf_flatten_map (delaysOf_triPulses c)]

theorem delaysOf_sendBin (s : List Byte) : delaysOf (sendBin c s) = sendBin c.disabled s := by
  by_cases hs : s = []
  · subst hs
    rfl
  · rw [sendBin_of_ne_nil hs, sendBin_of_ne_nil hs, delaysOf_repeatFrame, delaysOf_flatten_map (delaysOf_binPulses c)]

end

theorem isWrite_eq_false_of_mem_pulsePair {c : Snapshot} (hpin : c.pin = 0xFFFFFFFF) (hi lo : Nat) :
    ∀ e ∈ pulsePair c hi lo, e.isWrite = false := by
  intro e he
  rcases mem_pulsePair he with ⟨b, -, henabled⟩ | ⟨m, rfl⟩
  · exact absurd (by rw [hpin]; rfl) henabled
  · rfl

/-- Settles O43: each pulse pair on pin -1 is the DELAYs of the pair on any pin, and a send is made of pairs. -/
theorem disabledPinKeepsDelaysOnly : Obligations.DisabledPinKeepsDelaysOnly := fun c s =>
  ⟨fun hpin => ⟨mem_sendTri (isWrite_eq_false_of_mem_pulsePair hpin) s,
      mem_sendBin (isWrite_eq_false_of_mem_pulsePair hpin) s⟩,
    delaysOf_sendTri c s, delaysOf_sendBin c s⟩

/-! ### Bytes outside the alphabet (R255, R256) -/

/-- The symbols of a tri-state string. -/
abbrev isTriSymbol (b : Byte) : Bool := b == 0x30 || b == 0x31 || b == 0x46

/-- The symbols of a two-state string. -/
abbrev isBinSymbol (b : Byte) : Bool := b == 0x30 || b == 0x31

theorem triPulses_of_not_symbol {b : Byte} (h : isTriSymbol b = false) (c : Snapshot) : triPulses c b = [] := by
  simp only [isTriSymbol, Bool.or_eq_false_iff, beq_eq_false_iff_ne] at h
  obtain ⟨⟨h0, h1⟩, hF⟩ := h
  exact triPulses_of_other h0 h1 hF c

theorem binPulses_of_not_symbol {b : Byte} (h : isBinSymbol b = false) (c : Snapshot) : binPulses c b = [] := by
  simp only [isBinSymbol, Bool.or_eq_false_iff, beq_eq_false_iff_ne] at h
  obtain ⟨h0, h1⟩ := h
  exact binPulses_of_other h0 h1 c

/-- What has no pulse may be left out of a body. -/
theorem flatten_map_filter {f : Byte → List Event} {p : Byte → Bool} (h : ∀ b, p b = false → f b = []) (s : List Byte) :
    ((s.filter p).map f).flatten = (s.map f).flatten := by
  induction s with
  | nil => rfl
  | cons b s ih =>
    rw [List.map_cons, List.flatten_cons, ← ih, List.filter_cons]
    cases hb : p b with
    | true => rfl
    | false => rw [h b hb]; rfl

/-- Settles O46: a byte outside the alphabet has no pulse, and a string that keeps a symbol is not empty. -/
theorem otherBytesAreSkipped : Obligations.OtherBytesAreSkipped := by
  refine fun c s => ⟨?_, fun hsymbols => ?_⟩
  · rw [sendTri_eq, sendTri_eq, flatten_map_filter (p := isTriSymbol) fun b h => triPulses_of_not_symbol h c]
  · have hs : s ≠ [] := by
      rintro rfl
      exact hsymbols rfl
    rw [sendBin_of_ne_nil hs, sendBin_of_ne_nil hsymbols,
      flatten_map_filter (p := isBinSymbol) fun b h => binPulses_of_not_symbol h c]

/-! ### How many events a send has (R266) -/

/-- Events of a pulse pair (R251, R252). -/
def eventsPerPair (c : Snapshot) : Nat := if c.pin.toInt = -1 then 2 else 4

/-- Pulse pairs that bit 0, bit 1 and sync each have: one for a supported protocol, none for another (R253, R254). -/
def pairsPerPulse (c : Snapshot) : Nat := if c.protocol = 1 ∨ c.protocol = 2 ∨ c.protocol = 3 then 1 else 0

section
variable (c : Snapshot)

theorem length_pulsePair (hi lo : Nat) : (pulsePair c hi lo).length = eventsPerPair c := pulsePair_length c hi lo

theorem protocolRow_cases :
    protocolRow c.protocol = none ∧ pairsPerPulse c = 0 ∨ ∃ m, protocolRow c.protocol = some m ∧ pairsPerPulse c = 1 := by
  unfold protocolRow pairsPerPulse
  split_ifs <;> simp_all

theorem length_rowPulses (part : Multipliers → Nat × Nat) :
    (rowPulses c part).length = eventsPerPair c * pairsPerPulse c := by
  rcases protocolRow_cases c with ⟨hrow, hpairs⟩ | ⟨m, hrow, hpairs⟩
  · rw [rowPulses, hrow, hpairs]
    rfl
  · rw [rowPulses, hrow, hpairs, Option.elim_some, length_pulsePair, Nat.mul_one]

/-- A symbol is two pairs of four units each, (1, 3) or (3, 1) (R255). -/
theorem triPulses_of_symbol {b : Byte} (h : isTriSymbol b = true) :
    ∃ hi lo hi' lo' : Nat, hi + lo = 4 ∧ hi' + lo' = 4 ∧ triPulses c b = pulsePair c hi lo ++ pulsePair c hi' lo' := by
  simp only [isTriSymbol, Bool.or_eq_true, beq_iff_eq] at h
  rcases h with (rfl | rfl) | rfl
  · exact ⟨1, 3, 1, 3, rfl, rfl, rfl⟩
  · exact ⟨3, 1, 3, 1, rfl, rfl, rfl⟩
  · exact ⟨1, 3, 3, 1, rfl, rfl, rfl⟩

theorem length_triPulses_of_symbol {b : Byte} (h : isTriSymbol b = true) :
    (triPulses c b).length = eventsPerPair c * 2 := by
  obtain ⟨hi, lo, hi', lo', -, -, hpairs⟩ := triPulses_of_symbol c h
  rw [hpairs, List.length_append, length_pulsePair, length_pulsePair, Nat.mul_two]

theorem length_binPulses_of_symbol {b : Byte} (h : isBinSymbol b = true) :
    (binPulses c b).length = eventsPerPair c * pairsPerPulse c := by
  simp only [isBinSymbol, Bool.or_eq_true, beq_iff_eq] at h
  rcases h with rfl | rfl
  · exact (congrArg List.length (bit0Pulses_eq_rowPulses c)).trans (length_rowPulses c _)
  · exact (congrArg List.length (bit1Pulses_eq_rowPulses c)).trans (length_rowPulses c _)

/-- Each symbol of a body has as many events, and every other byte none. -/
theorem length_flatten_map {f : Byte → List Event} {p : Byte → Bool} {n : Nat} (hsymbol : ∀ b, p b = true → (f b).length = n)
    (hother : ∀ b, p b = false → f b = []) (s : List Byte) : (s.map f).flatten.length = n * (s.filter p).length := by
  induction s with
  | nil => rfl
  | cons b s ih =>
    rw [List.map_cons, List.flatten_cons, List.length_append, ih, List.filter_cons]
    cases hb : p b with
    | true => rw [hsymbol b hb, if_pos rfl, List.length_cons, Nat.mul_succ, Nat.add_comm]
    | false => rw [hother b hb, if_neg nofun, List.length_nil, Nat.zero_add]

theorem length_repeatFrame (body : List Event) :
    (repeatFrame c body).length = c.count.toNat * (body.length + eventsPerPair c * pairsPerPulse c) := by
  rw [repeatFrame, List.length_flatten, List.map_replicate, List.sum_replicate, List.length_append, syncPulses_eq_rowPulses,
    length_rowPulses, smul_eq_mul]

end

/-- Settles O47: the events of a frame are counted by its symbols and its sync, and the frames by the count. -/
theorem sendEventCounts : Obligations.SendEventCounts := by
  rintro c s perPair sync hperPair hsync
  have hperPair : perPair = eventsPerPair c := hperPair
  have hsync : sync = pairsPerPulse c := hsync
  refine ⟨?_, fun hs => ?_⟩
  · rw [sendTri_eq, length_repeatFrame, hperPair, hsync, length_flatten_map (p := isTriSymbol)
      (fun b => length_triPulses_of_symbol c) fun b h => triPulses_of_not_symbol h c]
    ring
  · rw [sendBin_of_ne_nil hs, length_repeatFrame, hperPair, hsync, length_flatten_map (p := isBinSymbol)
      (fun b => length_binPulses_of_symbol c) fun b h => binPulses_of_not_symbol h c]
    ring

/-! ### The sum of the DELAY operands (70_reset_and_hazards.md R513) -/

theorem delaySum_append (l k : List Event) : delaySum (l ++ k) = delaySum l + delaySum k := by
  induction l with
  | nil => exact (Int.zero_add _).symm
  | cons e l ih =>
    cases e <;> simp only [List.cons_append, delaySum, ih, Int.add_assoc]

theorem delaySum_flatten_replicate (n : Nat) (l : List Event) : delaySum (List.replicate n l).flatten = n * delaySum l := by
  induction n with
  | zero => simp [delaySum]
  | succ n ih =>
    rw [List.replicate_succ, List.flatten_cons, delaySum_append, ih, Nat.cast_succ]
    ring

section
variable (i : Instance)

/-- WRITEs have no DELAY operand, so the pin does not matter; below 2^31 the multipliers do not wrap (R264). -/
theorem delaySum_pulsePair {hi lo : Nat} (h : hi + lo < 2 ^ 31) :
    delaySum (pulsePair (snapshot i) hi lo) = i.pulse.toInt * (hi + lo : Nat) := by
  have hsum : delaySum (pulsePair (snapshot i) hi lo) =
      (BitVec.ofInt 64 (i.pulse.toInt * hi)).toInt + ((BitVec.ofInt 64 (i.pulse.toInt * lo)).toInt + 0) := by
    by_cases hpin : (snapshot i).pin.toInt = -1
    · rw [pulsePair_of_disabled hpin]
      rfl
    · rw [pulsePair_of_enabled hpin]
      rfl
  rw [hsum, toInt_ofInt_toInt_mul i.pulse (m := hi) (by omega), toInt_ofInt_toInt_mul i.pulse (m := lo) (by omega),
    Nat.cast_add]
  ring

theorem isTriSymbol_of_mem {b : Byte} (h : b ∈ triAlphabet) : isTriSymbol b = true := by
  rcases mem_triAlphabet.1 h with rfl | rfl | rfl <;> rfl

/-- Every symbol of a codeword lasts eight pulse units, whatever the protocol. -/
theorem delaySum_triPulses {b : Byte} (h : b ∈ triAlphabet) : delaySum (triPulses (snapshot i) b) = 8 * i.pulse.toInt := by
  obtain ⟨hi, lo, hi', lo', hfirst, hsecond, hpairs⟩ := triPulses_of_symbol (snapshot i) (isTriSymbol_of_mem h)
  rw [hpairs, delaySum_append, delaySum_pulsePair i (by omega), delaySum_pulsePair i (by omega), hfirst, hsecond]
  push_cast
  ring

theorem delaySum_flatten_map_triPulses {w : List Byte} (h : ∀ b ∈ w, b ∈ triAlphabet) :
    delaySum (w.map (triPulses (snapshot i))).flatten = w.length * (8 * i.pulse.toInt) := by
  induction w with
  | nil => simp [delaySum]
  | cons b w ih =>
    rw [List.forall_mem_cons] at h
    obtain ⟨hb, hw⟩ := h
    rw [List.map_cons, List.flatten_cons, delaySum_append, delaySum_triPulses i hb, ih hw, List.length_cons, Nat.cast_succ]
    ring

/-- N frames, each twelve symbols and a sync. -/
theorem delaySum_sendTri {w : List Byte} {sync : Int} (hw : isCodeword w) (hcount : 0 < i.repeatCount.toInt)
    (hsync : delaySum (syncPulses (snapshot i)) = sync * i.pulse.toInt) :
    delaySum (sendTri (snapshot i) w) = i.repeatCount.toInt * (12 * 8 + sync) * i.pulse.toInt := by
  obtain ⟨hlength, hsymbols⟩ := hw
  have hframes : ((snapshot i).count.toNat : Int) = i.repeatCount.toInt := Int.toNat_of_nonneg hcount.le
  rw [sendTri_eq, repeatFrame, delaySum_flatten_replicate, hframes, delaySum_append, hsync,
    delaySum_flatten_map_triPulses i hsymbols, hlength]
  push_cast
  ring

theorem delaySum_syncPulses_of_row {m : Multipliers} (hrow : protocolRow i.protocol.toInt = some m)
    (h : m.sync.1 + m.sync.2 < 2 ^ 31) :
    delaySum (syncPulses (snapshot i)) = (m.sync.1 + m.sync.2 : Nat) * i.pulse.toInt := by
  rw [syncPulses_of_row (c := snapshot i) hrow, delaySum_pulsePair i h, Int.mul_comm]

end

/-- Settles O48: the sum of a frame, with the sync of each protocol's row or none. -/
theorem switchWaveformDuration : Obligations.SwitchWaveformDuration := by
  refine fun i w hw hcount => ⟨fun h => ?_, fun h => ?_, fun h => ?_, fun h => ?_⟩
  · have hrow : protocolRow i.protocol.toInt = some ⟨(1, 3), (3, 1), (1, 31)⟩ := by rw [h]; rfl
    exact delaySum_sendTri i hw hcount (delaySum_syncPulses_of_row i hrow (by decide))
  · have hrow : protocolRow i.protocol.toInt = some ⟨(1, 2), (2, 1), (1, 10)⟩ := by rw [h]; rfl
    exact delaySum_sendTri i hw hcount (delaySum_syncPulses_of_row i hrow (by decide))
  · have hrow : protocolRow i.protocol.toInt = some ⟨(4, 11), (9, 6), (1, 71)⟩ := by rw [h]; rfl
    exact delaySum_sendTri i hw hcount (delaySum_syncPulses_of_row i hrow (by decide))
  · have hrow : protocolRow i.protocol.toInt = none := protocolRow_eq_none (by omega) (by omega) (by omega)
    have hsilent : delaySum (syncPulses (snapshot i)) = 0 * i.pulse.toInt := by
      rw [syncPulses_of_no_row (c := snapshot i) hrow, Int.zero_mul]
      rfl
    exact delaySum_sendTri i hw hcount hsilent

end Sys2Proof.Machine
end

section
/-! On and off codewords: ten symbols in common, then the two status symbols of the variant (40_codeword_encoder.md R204 to R207,
R213). -/

namespace Sys2Proof.Machine

/-! ### The last two symbols of a codeword -/

/-- The symbols at positions 10 and 11, which alone depend on the state (R204 to R207). -/
def statusSymbols (v : Variant) (on : Bool) : List Byte :=
  match v with
  | .a => if on then [ch0, chF] else [chF, ch0]
  | .b | .c => [chF, if on then chF else ch0]
  | .d => if on then [ch1, ch0] else [ch0, ch1]
  | .none => []

/-- The encoder gives NONE for both states, or the same ten symbols and the status symbols of each. -/
def EncodesUpToStatus (v : Variant) (encoder : Bool → Option (List Byte)) : Prop :=
  (∀ on, encoder on = none) ∨ ∃ x, x.length = 10 ∧ ∀ on, encoder on = some (x ++ statusSymbols v on)

theorem encodeA_upToStatus {g d : List Byte} (hg : g.length = 5) (hd : d.length = 5) :
    EncodesUpToStatus .a (encodeA g d) := by
  refine .inr ⟨g.map invertSymbol ++ d.map invertSymbol, ?_, encodeA_eq g d⟩
  rw [List.length_append, List.length_map, List.length_map, hg, hd]

theorem length_codeB {a : Int} (hlow : 1 ≤ a) (hhigh : a ≤ 4) : (codeB.getD a.toNat []).length = 4 := by
  have hcode : a.toNat = a.toNat - 1 + 1 := by omega
  obtain ⟨hlength, -⟩ := symbolString_codeB (a.toNat - 1) (by omega)
  rwa [← hcode] at hlength

theorem encodeB_upToStatus (a c : Int) : EncodesUpToStatus .b (encodeB a c) := by
  by_cases hrange : a < 1 ∨ a > 4 ∨ c < 1 ∨ c > 4
  · exact .inl fun on => if_pos hrange
  · refine .inr ⟨codeB.getD a.toNat [] ++ codeB.getD c.toNat [] ++ [chF, chF], ?_, fun on => ?_⟩
    · rw [List.length_append, List.length_append, length_codeB (by omega) (by omega), length_codeB (by omega) (by omega)]
      rfl
    · rw [encodeB, if_neg hrange, List.append_assoc, List.append_assoc _ [chF, chF]]
      rfl

theorem encodeC_upToStatus {p : Params} (hp : p.wf = true) (f : Byte) (g d : Int) :
    EncodesUpToStatus .c (encodeC p.familyTable f g d) := by
  by_cases hrange : f < 0x61 ∨ f > 0x70 ∨ g < 1 ∨ g > 4 ∨ d < 1 ∨ d > 4
  · exact .inl fun on => if_pos hrange
  · have hentry : f.toNat - 0x61 < 16 := by
      have hhigh : ¬ f > 0x70 := fun h => hrange (.inr (.inl h))
      have hle : f.toNat ≤ 0x70 := Nat.not_lt.1 hhigh
      omega
    have hfamily := symbolString_of_mem_familyTable hp (List.mem_of_getElem? (familyTable_getElem?_getD hp hentry))
    obtain ⟨hfamilyLength, -⟩ := hfamily
    refine .inr ⟨p.familyTable.getD (f.toNat - 0x61) []
      ++ deviceGroupPattern (BitVec.ofInt 4 ((d - 1) + (g - 1) * 4)) ++ [ch0, chF], ?_, fun on => ?_⟩
    · obtain ⟨hpatternLength, -⟩ := symbolString_deviceGroupPattern (BitVec.ofInt 4 ((d - 1) + (g - 1) * 4))
      rw [List.length_append, List.length_append, hfamilyLength, hpatternLength]
      rfl
    · rw [encodeC, if_neg hrange]
      simp only [List.append_assoc]
      rfl

/-- The marked position lies among the last five symbols, after the two codes. -/
theorem set_stateSymbols {x : List Byte} (hx : x.length = 7) (on : Bool) :
    (if on then (x ++ List.replicate 5 ch0).set 10 ch1 else (x ++ List.replicate 5 ch0).set 11 ch1) =
      x ++ List.replicate 3 ch0 ++ statusSymbols .d on := by
  rw [List.append_assoc]
  cases on with
  | true => exact (List.set_append_right 10 ch1 (by omega)).trans (by rw [hx]; rfl)
  | false => exact (List.set_append_right 11 ch1 (by omega)).trans (by rw [hx]; rfl)

theorem encodeD_upToStatus (gc : Byte) (dv : Int) : EncodesUpToStatus .d (encodeD gc dv) := by
  cases hgv : groupValueD gc with
  | none => exact .inl fun on => encodeD_eq_none_iff.2 (.inl hgv)
  | some gv =>
    cases hdn : deviceValueD dv with
    | none => exact .inl fun on => encodeD_eq_none_iff.2 (.inr hdn)
    | some dn =>
      have hcodes : (dec2bin gv chF ++ dec2bin dn chF).length = 7 := by
        rw [List.length_append, length_dec2bin, length_dec2bin]
      refine .inr ⟨dec2bin gv chF ++ dec2bin dn chF ++ List.replicate 3 ch0, ?_, fun on => ?_⟩
      · rw [List.length_append, hcodes]
        rfl
      · rw [encodeD, hgv, hdn]
        exact congrArg some (set_stateSymbols hcodes on)

/-- The dispatch of R208 for a bound variant of a legal platform. -/
theorem encodeCodeword_upToStatus {p : Params} {i : Instance} (hp : p.wf = true) (ha : i.paramA.length = 10)
    (hbound : i.variant ≠ .none) : EncodesUpToStatus i.variant (encodeCodeword p.familyTable i) := by
  cases hvariant : i.variant with
  | none => exact absurd hvariant hbound
  | a =>
    rw [funext (encodeCodeword_of_variant_a hvariant p.familyTable)]
    exact encodeA_upToStatus (by simp [ha]) (by simp [ha])
  | b =>
    rw [funext (encodeCodeword_of_variant_b hvariant p.familyTable)]
    exact encodeB_upToStatus _ _
  | c =>
    rw [funext (encodeCodeword_of_variant_c hvariant p.familyTable)]
    exact encodeC_upToStatus hp _ _ _
  | d =>
    rw [funext (encodeCodeword_of_variant_d hvariant p.familyTable)]
    exact encodeD_upToStatus _ _

/-! ### R213 (b), (c), (d) -/

/-- Variants A, B and C use '0' and 'F' alone (R213 (b)). -/
theorem symbolString_encodeCodeword {p : Params} {i : Instance} {on : Bool} {w : List Byte} (hp : p.wf = true)
    (ha : i.paramA.length = 10) (hvariant : i.variant ≠ .d) (h : encodeCodeword p.familyTable i on = some w) :
    SymbolString twoSymbols 12 w := by
  cases hv : i.variant with
  | none =>
    rw [encodeCodeword, hv] at h
    cases h
  | a =>
    rw [encodeCodeword_of_variant_a hv] at h
    exact symbolString_encodeA (by simp [ha]) (by simp [ha]) h
  | b =>
    rw [encodeCodeword_of_variant_b hv] at h
    exact symbolString_encodeB h
  | c =>
    rw [encodeCodeword_of_variant_c hv] at h
    exact symbolString_encodeC hp h
  | d => exact absurd hv hvariant

/-- Position 11 tells the states apart in every variant, position 10 in A and D alone (R213 (c)). -/
theorem statusSymbols_differ (v : Variant) (hbound : v ≠ .none) :
    (statusSymbols v true)[1]? ≠ (statusSymbols v false)[1]?
      ∧ (v = .b ∨ v = .c → (statusSymbols v true)[0]? = (statusSymbols v false)[0]?)
      ∧ (v = .a ∨ v = .d → (statusSymbols v true)[0]? ≠ (statusSymbols v false)[0]?) := by
  cases v with
  | none => exact absurd rfl hbound
  | a => decide
  | b => decide
  | c => decide
  | d => decide

/-- Settles O35: both states share NONE, or ten symbols before the status symbols. -/
theorem onAndOffDifferOnlyInStatusSymbols : Obligations.OnAndOffDifferOnlyInStatusSymbols := by
  intro p i hp ha hbound
  refine ⟨?_, fun hvariant on w h c hc => ?_, fun w v hw hv => ?_⟩
  · rcases encodeCodeword_upToStatus hp ha hbound with hnone | ⟨x, -, hsome⟩
    · exact iff_of_true (hnone true) (hnone false)
    · rw [hsome, hsome]
      exact iff_of_false nofun nofun
  · obtain ⟨-, hsymbols⟩ := symbolString_encodeCodeword hp ha hvariant h
    exact List.mem_pair.1 (hsymbols c hc)
  · rcases encodeCodeword_upToStatus hp ha hbound with hnone | ⟨x, hx, hsome⟩
    · rw [hnone] at hw
      cases hw
    · rw [hsome] at hw hv
      cases hw
      cases hv
      obtain ⟨hlast, hbc, had⟩ := statusSymbols_differ i.variant hbound
      have hstatus (on : Bool) (k : Nat) : (x ++ statusSymbols i.variant on)[10 + k]? = (statusSymbols i.variant on)[k]? := by
        rw [List.getElem?_append_right (by omega), hx, Nat.add_sub_cancel_left]
      refine ⟨fun j hj => ?_, ?_, fun h => ?_, fun h => ?_⟩
      · rw [List.getElem?_append_left (by omega), List.getElem?_append_left (by omega)]
      · rw [hstatus true 1, hstatus false 1]
        exact hlast
      · rw [hstatus true 0, hstatus false 0]
        exact hbc h
      · rw [hstatus true 0, hstatus false 0]
        exact had h

end Sys2Proof.Machine
end

section
/-! Two instances whose hosts both write ENABLE_TRANSMIT: LATCH is read when the command is accepted and set when INIT is presented, so
the order of the turns decides how many INITs there are (60_exceptions.md R417). -/

namespace Sys2Proof.Machine

/-! ### One turn of a listed order -/

/-- A turn of the selected instance: `later` turns are left, and the other instances stand unchanged in their places. -/
structure TurnOfSelected (s t : State) (later : List Turn) : Prop where
  turns : t.turns = later
  place : t.before.length = s.before.length
  others : ∀ k, k ≠ s.before.length → t.instances[k]? = s.instances[k]?

theorem turnOfSelected_of_withInst {s : State} {later : List Turn} (latch : Bool) (j : Instance) :
    TurnOfSelected s { s.withInst j with latch := latch, turns := later } later where
  turns := rfl
  place := rfl
  others _ hk := instances_withInst_other j hk

section
variable {s : State} {later : List Turn}

theorem nextTurn_of_turns_cons {turn : Turn} (h : s.turns = turn :: later) : nextTurn s = turn := by
  rw [nextTurn, h]

/-- ENABLE_TRANSMIT of an idle instance: its queue is the bring-up events, chosen by LATCH. -/
theorem step_enableTransmit {rest : List Access} (hturns : s.turns = .host :: later) (hidle : s.inst.busy = false)
    (hhost : s.inst.out.host = .write 0x000 0x00000008 :: rest) :
    ∃ t, step s = .next t ∧ TurnOfSelected s t later ∧ t.latch = s.latch
      ∧ t.inst.queue = gpioBind s.latch s.inst.arg0 ∧ t.inst.await = false ∧ t.inst.out.events = s.inst.out.events := by
  have hdecode : decode 0x00000008 = .ok .enableTransmit := decode_encode .enableTransmit
  have hstep := stepRunsDecodedCommand s _ _ rest ⟨nextTurn_of_turns_cons hturns, hhost⟩ hidle hdecode
  rw [exec_enableTransmit, State.hostMoved, hturns] at hstep
  refine ⟨_, hstep, turnOfSelected_of_withInst s.latch _, rfl, ?_, await_eq_false_of_not_busy (i := s.inst) hidle, rfl⟩
  exact congrArg (· ++ gpioBind s.latch s.inst.arg0) (queue_eq_nil_of_not_busy hidle)

/-- A pending INIT is presented, which sets LATCH (10_state.md R47). -/
theorem step_presentInit {rest : List Event} (hturns : s.turns = .sequencer :: later) (hfree : s.inst.await = false)
    (hqueue : s.inst.queue = .init :: rest) :
    ∃ t, step s = .next t ∧ TurnOfSelected s t later ∧ t.latch = true ∧ Event.init ∈ t.inst.out.events := by
  have hstep : step s = .next (present s.turnUsed) := by
    rw [step_eq_takeTurn, nextTurn_of_turns_cons hturns, takeTurn]
  rw [present_of_head (s := s.turnUsed) hfree hqueue, State.turnUsed, hturns] at hstep
  exact ⟨_, hstep, turnOfSelected_of_withInst _ _, Bool.or_true s.latch, List.mem_append_right _ List.mem_cons_self⟩

/-- A selection makes instance k the one that moves, and changes no instance. -/
theorem step_select {k : Nat} {i : Instance} (hturns : s.turns = .select k :: later) (hi : s.instances[k]? = some i) :
    ∃ t, step s = .next t ∧ t.turns = later ∧ t.latch = s.latch ∧ t.instances = s.instances ∧ t.inst = i
      ∧ t.before.length = k := by
  obtain ⟨-, hlatch, hlater⟩ := selectInstance_frame k s.turnUsed
  obtain ⟨hinst, hplace⟩ := selectInstance_of_some (s := s.turnUsed) hi
  have hstep := step_of_nextTurn_select (nextTurn_of_turns_cons hturns)
  rw [turnUsed_turns, hturns] at hlater
  exact ⟨_, hstep, hlater, hlatch, selectInstance_instances k s.turnUsed, hinst, hplace⟩

end

/-! ### The bring-up events (42_switch_handle.md R307) -/

theorem gpioBind_latch_clear (q : Word) : ∃ rest, gpioBind false q = .init :: rest := ⟨_, rfl⟩

theorem init_not_mem_gpioBind_latch_set (q : Word) : Event.init ∉ gpioBind true q := by
  by_cases hq : q.toInt = -1 <;> simp [gpioBind_eq, hq]

/-! ### The two orders of R417 -/

section
variable {s : State} {k : Nat} {other : Instance} {rest rest' : List Access} {later : List Turn}

/-- The second host's write is accepted before the first INIT is presented: both INITs are pending, and LATCH is clear. -/
theorem stepN_both_accepted (hlatch : s.latch = false) (hk : k ≠ s.before.length) (hother : s.instances[k]? = some other)
    (hidle : s.inst.busy = false) (hidle' : other.busy = false)
    (hhost : s.inst.out.host = .write 0x000 0x00000008 :: rest)
    (hhost' : other.out.host = .write 0x000 0x00000008 :: rest')
    (hturns : s.turns = .host :: .select k :: .host :: later) :
    ∃ t a qa qb, stepN 3 s = .next t ∧ t.turns = later ∧ t.latch = false ∧ t.before.length = k
      ∧ t.instances[s.before.length]? = some a ∧ a.queue = .init :: qa ∧ a.await = false
      ∧ t.inst.queue = .init :: qb ∧ t.inst.await = false := by
  obtain ⟨s₁, hfirst, hmoved₁, hlatch₁, hqueue₁, hfree₁, -⟩ := step_enableTransmit hturns hidle hhost
  obtain ⟨s₂, hsecond, hturns₂, hlatch₂, hinstances₂, rfl, rfl⟩ :=
    step_select hmoved₁.turns ((hmoved₁.others k hk).trans hother)
  obtain ⟨t, hthird, hmoved₃, hlatch₃, hqueue₃, hfree₃, -⟩ := step_enableTransmit hturns₂ hidle' hhost'
  have hclear₂ : s₂.latch = false := hlatch₂.trans (hlatch₁.trans hlatch)
  obtain ⟨qa, hqa⟩ := gpioBind_latch_clear s.inst.arg0
  obtain ⟨qb, hqb⟩ := gpioBind_latch_clear s₂.inst.arg0
  rw [hlatch, hqa] at hqueue₁
  rw [hclear₂, hqb] at hqueue₃
  refine ⟨t, s₁.inst, qa, qb, ?_, hmoved₃.turns, hlatch₃.trans hclear₂, hmoved₃.place, ?_, hqueue₁, hfree₁, hqueue₃, hfree₃⟩
  · rw [stepN_succ hfirst, stepN_succ hsecond, stepN_succ hthird]
    rfl
  · rw [hmoved₃.others _ hk.symm, hinstances₂, ← hmoved₁.place]
    exact instances_inst s₁

/-- Both pending INITs are presented: LATCH, once set, does not hold the second one back. -/
theorem stepN_both_presented {t : State} {n : Nat} {a : Instance} {qa qb : List Event}
    (hturns : t.turns = .sequencer :: .select n :: .sequencer :: later) (hn : n ≠ t.before.length)
    (ha : t.instances[n]? = some a) (hqueueA : a.queue = .init :: qa) (hfreeA : a.await = false)
    (hqueueB : t.inst.queue = .init :: qb) (hfreeB : t.inst.await = false) :
    ∃ u a b, stepN 3 t = .next u ∧ u.latch = true ∧ u.instances[n]? = some a ∧ u.instances[t.before.length]? = some b
      ∧ Event.init ∈ a.out.events ∧ Event.init ∈ b.out.events := by
  obtain ⟨s₁, hfirst, hmoved₁, -, hinit₁⟩ := step_presentInit hturns hfreeB hqueueB
  obtain ⟨s₂, hsecond, hturns₂, -, hinstances₂, rfl, rfl⟩ :=
    step_select hmoved₁.turns ((hmoved₁.others n hn).trans ha)
  obtain ⟨u, hthird, hmoved₃, hset, hinit₃⟩ := step_presentInit hturns₂ hfreeA hqueueA
  refine ⟨u, u.inst, s₁.inst, ?_, hset, ?_, ?_, hinit₃, hinit₁⟩
  · rw [stepN_succ hfirst, stepN_succ hsecond, stepN_succ hthird]
    rfl
  · rw [← hmoved₃.place]
    exact instances_inst u
  · rw [hmoved₃.others _ hn.symm, hinstances₂, ← hmoved₁.place]
    exact instances_inst s₁

/-- The first INIT is presented before the second host's write is accepted: that write finds LATCH set and emits none. -/
theorem stepN_second_emits_none (hlatch : s.latch = false) (hk : k ≠ s.before.length)
    (hother : s.instances[k]? = some other) (hidle : s.inst.busy = false) (hidle' : other.busy = false)
    (hhost : s.inst.out.host = .write 0x000 0x00000008 :: rest)
    (hhost' : other.out.host = .write 0x000 0x00000008 :: rest')
    (hturns : s.turns = .host :: .sequencer :: .select k :: .host :: later) :
    ∃ u a b, stepN 4 s = .next u ∧ u.latch = true ∧ u.instances[s.before.length]? = some a
      ∧ u.instances[k]? = some b ∧ Event.init ∈ a.out.events ∧ Event.init ∉ b.queue ∧ b.out.events = other.out.events := by
  obtain ⟨s₁, hfirst, hmoved₁, -, hqueue₁, hfree₁, -⟩ := step_enableTransmit hturns hidle hhost
  obtain ⟨qa, hqa⟩ := gpioBind_latch_clear s.inst.arg0
  rw [hlatch, hqa] at hqueue₁
  obtain ⟨s₂, hsecond, hmoved₂, hset₂, hinit₂⟩ := step_presentInit hmoved₁.turns hfree₁ hqueue₁
  have hplace₂ : s₂.before.length = s.before.length := hmoved₂.place.trans hmoved₁.place
  have hother₂ : s₂.instances[k]? = some other := by
    rw [hmoved₂.others k (by rwa [hmoved₁.place]), hmoved₁.others k hk, hother]
  obtain ⟨s₃, hthird, hturns₃, hlatch₃, hinstances₃, rfl, rfl⟩ := step_select hmoved₂.turns hother₂
  obtain ⟨u, hfourth, hmoved₄, hlatch₄, hqueue₄, -, hevents₄⟩ := step_enableTransmit hturns₃ hidle' hhost'
  have hset₃ : s₃.latch = true := hlatch₃.trans hset₂
  refine ⟨u, s₂.inst, u.inst, ?_, hlatch₄.trans hset₃, ?_, ?_, hinit₂, ?_, hevents₄⟩
  · rw [stepN_succ hfirst, stepN_succ hsecond, stepN_succ hthird, stepN_succ hfourth]
    rfl
  · rw [hmoved₄.others _ hk.symm, hinstances₃, ← hplace₂]
    exact instances_inst s₂
  · rw [← hmoved₄.place]
    exact instances_inst u
  · rw [hqueue₄, hset₃]
    exact init_not_mem_gpioBind_latch_set _

end

/-- Settles O20: LATCH is read at acceptance and set at presentation, in both orders of the turns. -/
theorem bringUpRaceAdmitsTwoInits : Obligations.BringUpRaceAdmitsTwoInits := by
  intro s k other rest rest' later hlatch hk hother hidle hidle' hhost hhost'
  refine ⟨fun hturns => ?_, fun hturns => ?_⟩
  · obtain ⟨t, a, qa, qb, hrun, hturns', hclear, rfl, ha, hqueueA, hfreeA, hqueueB, hfreeB⟩ :=
      stepN_both_accepted hlatch hk hother hidle hidle' hhost hhost' hturns
    obtain ⟨u, a', b', hrun', hset, ha', hb', hinitA, hinitB⟩ :=
      stepN_both_presented hturns' hk.symm ha hqueueA hfreeA hqueueB hfreeB
    have hpendingA : Event.init ∈ a.queue := hqueueA ▸ List.mem_cons_self
    have hpendingB : Event.init ∈ t.inst.queue := hqueueB ▸ List.mem_cons_self
    exact ⟨t, u, hrun, hclear, ⟨a, t.inst, ha, instances_inst t, hpendingA, hpendingB⟩, hrun', hset, a', b', ha', hb',
      hinitA, hinitB⟩
  · obtain ⟨u, a, b, hrun, hset, ha, hb, hinitA, hnone, hevents⟩ :=
      stepN_second_emits_none hlatch hk hother hidle hidle' hhost hhost' hturns
    exact ⟨u, hrun, hset, a, b, ha, hb, hinitA, hnone, hevents⟩

end Sys2Proof.Machine
end

section
/-! The accesses of an assembled line, made by the host of an idle instance in the default order of turns (log 2): a command line and
a data buffer directive (30_encoding.md R131, R132). -/

namespace Sys2Proof.Machine

/-! ### One access of an idle instance's host -/

section
variable {s : State} {rest : List Access}

theorem step_idleWrite {offset : Nat} {v : Word} (hturns : s.turns = []) (hidle : s.inst.busy = false)
    (hoffset : offset < 0x1000) (hne : offset ≠ 0) (hhost : s.inst.out.host = .write offset v :: rest) :
    step s = .next (mmioWrite offset v (s.withHost rest)) := by
  rw [step_write_of_ne_zero hoffset hne (hostAbout_of_idle hturns hidle hhost) hidle, hostMoved_of_turns_nil hturns]

theorem step_idleCommand {i : Instr} (hturns : s.turns = []) (hidle : s.inst.busy = false)
    (hhost : s.inst.out.host = .write 0x000 (encode i) :: rest) : step s = exec i (s.withHost rest) := by
  rw [stepRunsDecodedCommand s _ i rest (hostAbout_of_idle hturns hidle hhost) hidle (decode_encode i),
    hostMoved_of_turns_nil hturns]

theorem stepN_one (s : State) : stepN 1 s = step s := by
  rw [stepN]
  cases step s <;> rfl

end

/-! ### Command lines (30_encoding.md R131) -/

/-- The argument registers hold these three words, and the host goes on with `rest`. -/
def State.withArguments (s : State) (a0 a1 a2 : Word) (rest : List Access) : State :=
  s.withInst { s.inst with arg0 := a0, arg1 := a1, arg2 := a2, out := { s.inst.out with host := rest } }

section
variable {s : State} {i : Instr} {rest : List Access} {a0 a1 a2 v0 v1 v2 : Word}

/-- The last access of the line. -/
theorem stepN_command (hturns : s.turns = []) (hidle : s.inst.busy = false) :
    stepN 1 (s.withArguments a0 a1 a2 (.write 0x000 (encode i) :: rest)) = exec i (s.withArguments a0 a1 a2 rest) := by
  rw [stepN_one]
  exact step_idleCommand (s := s.withArguments a0 a1 a2 _) hturns hidle rfl

theorem step_arg0 (hturns : s.turns = []) (hidle : s.inst.busy = false) :
    step (s.withArguments a0 a1 a2 (.write 0x008 v0 :: rest)) = .next (s.withArguments v0 a1 a2 rest) :=
  step_idleWrite (s := s.withArguments a0 a1 a2 _) hturns hidle (by decide) (by decide) rfl

theorem step_arg1 (hturns : s.turns = []) (hidle : s.inst.busy = false) :
    step (s.withArguments a0 a1 a2 (.write 0x00C v1 :: rest)) = .next (s.withArguments a0 v1 a2 rest) :=
  step_idleWrite (s := s.withArguments a0 a1 a2 _) hturns hidle (by decide) (by decide) rfl

theorem step_arg2 (hturns : s.turns = []) (hidle : s.inst.busy = false) :
    step (s.withArguments a0 a1 a2 (.write 0x010 v2 :: rest)) = .next (s.withArguments a0 a1 v2 rest) :=
  step_idleWrite (s := s.withArguments a0 a1 a2 _) hturns hidle (by decide) (by decide) rfl

end

/-- A format has at most three operands (30_encoding.md R123). -/
theorem length_kindsOf_le (f : Format) : (kindsOf f).length ≤ 3 := by cases f <;> decide

theorem length_ops_of_wf {size : Nat} {i : Instr} {ops : List Operand} (h : (AsmLine.command i ops).wf size = true) :
    ops.length ≤ 3 := by
  simp only [AsmLine.wf, Bool.and_eq_true, decide_eq_true_eq] at h
  obtain ⟨hlength, -⟩ := h
  rw [hlength]
  exact length_kindsOf_le _

theorem withArguments_self {s : State} {accesses : List Access} (h : s.inst.out.host = accesses) :
    s.withArguments s.inst.arg0 s.inst.arg1 s.inst.arg2 accesses = s := by
  subst h
  rfl

/-- One step for each operand, into ARG0, ARG1 and ARG2 in this order, and one for the command. -/
theorem stepN_expandCommand {s : State} {i : Instr} {rest : List Access} {a0 a1 a2 : Word} {ops : List Operand}
    (hlength : ops.length ≤ 3) (hturns : s.turns = []) (hidle : s.inst.busy = false) :
    stepN (ops.length + 1) (s.withArguments a0 a1 a2 (expandCommand i ops ++ rest)) =
      exec i (s.withArguments ((ops.map operandWord).getD 0 a0) ((ops.map operandWord).getD 1 a1)
        ((ops.map operandWord).getD 2 a2) rest) := by
  match ops with
  | [] => exact stepN_command hturns hidle
  | [x] => exact (stepN_succ (step_arg0 hturns hidle) 1).trans (stepN_command hturns hidle)
  | [x, y] =>
    exact (stepN_succ (step_arg0 hturns hidle) 2).trans ((stepN_succ (step_arg1 hturns hidle) 1).trans
      (stepN_command hturns hidle))
  | [x, y, z] =>
    exact (stepN_succ (step_arg0 hturns hidle) 3).trans ((stepN_succ (step_arg1 hturns hidle) 2).trans
      ((stepN_succ (step_arg2 hturns hidle) 1).trans (stepN_command hturns hidle)))
  | _ :: _ :: _ :: _ :: _ =>
    simp only [List.length_cons] at hlength
    omega

/-- Settles O55: the line's accesses, from the words the argument registers hold before it. -/
theorem commandLineWritesOperandsThenRuns : Obligations.CommandLineWritesOperandsThenRuns := by
  intro s i ops rest hwf hturns hidle hhost
  have hhost : s.inst.out.host = expandCommand i ops ++ rest := hhost
  have hrun := stepN_expandCommand (s := s) (i := i) (rest := rest) (a0 := s.inst.arg0) (a1 := s.inst.arg1)
    (a2 := s.inst.arg2) (length_ops_of_wf hwf) hturns hidle
  rwa [withArguments_self hhost] at hrun

/-! ### Directives (30_encoding.md R132) -/

/-- The byte a directive leaves at index k: its own where it has one, and else the one that was read. -/
def directiveByte (current : Nat → Byte) (start : Nat) (bytes : List Byte) (k : Nat) : Byte :=
  if start ≤ k then bytes.getD (k - start) (current k) else current k

/-- Word `q` of a data buffer whose bytes are those of `f`. -/
def dbufWord (f : Nat → Byte) (q : Nat) : Word := packWord (f (4 * q)) (f (4 * q + 1)) (f (4 * q + 2)) (f (4 * q + 3))

theorem laneOf_dbufWord (f : Nat → Byte) {q k : Nat} (hk : 4 * q ≤ k ∧ k < 4 * q + 4) :
    laneOf (dbufWord f q) (k - 4 * q) = f k := by
  have hlane := laneOf_packWord_apply (fun m => f (4 * q + m)) (j := k - 4 * q) (by omega)
  rwa [Nat.add_sub_cancel' hk.1] at hlane

/-- The read and the write of data buffer word `q`, whose bytes become those of `f`. -/
def wordAccesses (f : Nat → Byte) (q : Nat) : List Access := [.read (0x100 + 4 * q), .write (0x100 + 4 * q) (dbufWord f q)]

/-- The accesses of `n` words from word `q` on. -/
def wordsAccesses (f : Nat → Byte) (q n : Nat) : List Access := (List.range n).flatMap fun j => wordAccesses f (q + j)

theorem wordsAccesses_succ (f : Nat → Byte) (q n : Nat) :
    wordsAccesses f q (n + 1) = wordAccesses f q ++ wordsAccesses f (q + 1) n := by
  rw [wordsAccesses, List.range_succ_eq_map, List.flatMap_cons, List.flatMap_map, wordsAccesses]
  simp only [Nat.succ_eq_add_one, Nat.add_assoc, Nat.add_comm 1, Nat.add_zero]

theorem length_wordsAccesses (f : Nat → Byte) (q n : Nat) : (wordsAccesses f q n).length = 2 * n := by
  induction n generalizing q with
  | zero => rfl
  | succ n ih =>
    rw [wordsAccesses_succ, List.length_append, ih, Nat.mul_succ, Nat.add_comm]
    rfl

/-- The words that `len` bytes from index `start` on touch. -/
def wordCount (start len : Nat) : Nat := (start + len - 1) / 4 + 1 - start / 4

theorem expandBytes_of_ne_nil {bytes : List Byte} (h : bytes ≠ []) (current : Nat → Byte) (start : Nat) :
    expandBytes current start bytes =
      wordsAccesses (directiveByte current start bytes) (start / 4) (wordCount start bytes.length) := if_neg h

/-- The host has gone on to `rest`, the data buffer and the record of reads may have changed, and nothing else. -/
def State.storing (s : State) (dbuf : Memory) (reads : List (Nat × Word)) (rest : List Access) : State :=
  s.withInst { s.inst with dbuf := dbuf, out := { s.inst.out with host := rest, reads := reads } }

theorem storing_self {s : State} {rest : List Access} (h : s.inst.out.host = rest) :
    s.storing s.inst.dbuf s.inst.out.reads rest = s := by
  subst h
  rfl

section
variable {s : State} {f : Nat → Byte} {q : Nat} {rest : List Access}

theorem step_idleReadWord (hp : s.params.wf = true) (hturns : s.turns = []) (hidle : s.inst.busy = false)
    (hq : 4 * q < s.params.dbufSize) (hhost : s.inst.out.host = .read (0x100 + 4 * q) :: rest) :
    ∃ reads, step s = .next (s.storing s.inst.dbuf reads rest) := by
  obtain ⟨-, -, hsize⟩ := dbufSize_of_wf hp
  refine ⟨s.inst.out.reads ++ [(0x100 + 4 * q, readTarget s.latch s.inst (.dbuf (4 * q)))], ?_⟩
  rw [step_read (by omega) (hostAbout_of_idle hturns hidle hhost), mmioRead, hostMoved_params, targetOf_dbuf hq,
    hostMoved_of_turns_nil hturns]
  rfl

theorem step_idleWriteWord {v : Word} (hp : s.params.wf = true) (hturns : s.turns = []) (hidle : s.inst.busy = false)
    (hq : 4 * q < s.params.dbufSize) (hhost : s.inst.out.host = .write (0x100 + 4 * q) v :: rest) :
    step s = .next (s.storing (writeDbufWord s.inst.dbuf (4 * q) v) s.inst.out.reads rest) := by
  obtain ⟨-, -, hsize⟩ := dbufSize_of_wf hp
  rw [step_idleWrite hturns hidle (by omega) (by omega) hhost, mmioWrite_dbuf (s := s.withHost rest) hq]
  rfl

/-- The two accesses of a word put the four bytes of `f` there. -/
theorem stepN_wordAccesses (hp : s.params.wf = true) (hturns : s.turns = []) (hidle : s.inst.busy = false)
    (hq : 4 * q < s.params.dbufSize) (hhost : s.inst.out.host = wordAccesses f q ++ rest) :
    ∃ dbuf reads, stepN 2 s = .next (s.storing dbuf reads rest)
      ∧ ∀ k, (s.storing dbuf reads rest).inst.dbufByte k =
        if 4 * q ≤ k ∧ k < 4 * (q + 1) then f k else s.inst.dbufByte k := by
  obtain ⟨reads, hread⟩ := step_idleReadWord hp hturns hidle hq hhost
  have hwrite := step_idleWriteWord (s := s.storing s.inst.dbuf reads (.write (0x100 + 4 * q) (dbufWord f q) :: rest))
    hp hturns hidle hq rfl
  refine ⟨_, reads, (stepN_succ hread 1).trans ((stepN_one _).trans hwrite), fun k => ?_⟩
  refine (dbufByte_writeDbufWord s.inst (4 * q) _ k).trans ?_
  by_cases hk : 4 * q ≤ k ∧ k < 4 * q + 4
  · rw [if_pos hk, if_pos (by omega), laneOf_dbufWord f hk]
  · rw [if_neg hk, if_neg (by omega)]

/-- Word after word: by induction on their number, the run of the first followed by that of the others. -/
theorem stepN_wordsAccesses {n : Nat} (hp : s.params.wf = true) (hturns : s.turns = []) (hidle : s.inst.busy = false)
    (hinside : 4 * (q + n) ≤ s.params.dbufSize) (hhost : s.inst.out.host = wordsAccesses f q n ++ rest) :
    ∃ dbuf reads, stepN (2 * n) s = .next (s.storing dbuf reads rest)
      ∧ ∀ k, (s.storing dbuf reads rest).inst.dbufByte k =
        if 4 * q ≤ k ∧ k < 4 * (q + n) then f k else s.inst.dbufByte k := by
  induction n generalizing q s with
  | zero =>
    refine ⟨s.inst.dbuf, s.inst.out.reads, ?_, fun k => ?_⟩
    · rw [storing_self (hhost.trans (List.nil_append rest))]
      rfl
    · rw [if_neg (by omega)]
      rfl
  | succ n ih =>
    rw [wordsAccesses_succ, List.append_assoc] at hhost
    obtain ⟨dbuf₁, reads₁, hfirst, hbytes₁⟩ := stepN_wordAccesses hp hturns hidle (by omega) hhost
    obtain ⟨dbuf, reads, hothers, hbytes⟩ := ih (q := q + 1)
      (s := s.storing dbuf₁ reads₁ (wordsAccesses f (q + 1) n ++ rest)) hp hturns hidle (by rw [Nat.add_assoc, Nat.add_comm 1]; exact hinside) rfl
    refine ⟨dbuf, reads, ?_, fun k => (hbytes k).trans ?_⟩
    · rw [Nat.mul_succ, Nat.add_comm, stepN_add _ hfirst]
      exact hothers
    · by_cases hlater : 4 * (q + 1) ≤ k ∧ k < 4 * (q + 1 + n)
      · rw [if_pos hlater, if_pos (by omega)]
      · rw [if_neg hlater, hbytes₁]
        exact if_congr (by omega) rfl rfl

end

/-- The bytes of a directive lie inside whole words of the data buffer, whose size is a multiple of four. -/
theorem wordCount_inside {size start len : Nat} (hsize : size % 4 = 0) (hlen : 0 < len) (hinside : start + len ≤ size) :
    4 * (start / 4 + wordCount start len) ≤ size
      ∧ ∀ k, start ≤ k → k < start + len → 4 * (start / 4) ≤ k ∧ k < 4 * (start / 4 + wordCount start len) := by
  unfold wordCount
  exact ⟨by omega, fun k _ _ => by omega⟩

theorem directiveByte_of_inside (current : Nat → Byte) (start : Nat) {bytes : List Byte} {k : Nat} (hk : k < bytes.length) :
    some (directiveByte current start bytes (start + k)) = bytes[k]? := by
  rw [directiveByte, if_pos (by omega), Nat.add_sub_cancel_left, List.getD_eq_getElem _ _ hk, List.getElem?_eq_getElem hk]

theorem directiveByte_of_outside (current : Nat → Byte) {start k : Nat} {bytes : List Byte}
    (hk : k < start ∨ start + bytes.length ≤ k) : directiveByte current start bytes k = current k := by
  unfold directiveByte
  split
  · exact List.getD_eq_default _ _ (by omega)
  · rfl

/-- The expansion of a directive, as a run: its bytes at their indices, and every other byte as it was. -/
theorem stepN_expandBytes {s : State} {start : Nat} {bytes : List Byte} {rest : List Access} (hp : s.params.wf = true)
    (hturns : s.turns = []) (hidle : s.inst.busy = false) (hinside : start + bytes.length ≤ s.params.dbufSize)
    (hhost : s.inst.out.host = expandBytes s.inst.dbufByte start bytes ++ rest) :
    ∃ dbuf reads, stepN (expandBytes s.inst.dbufByte start bytes).length s = .next (s.storing dbuf reads rest)
      ∧ (∀ k, k < bytes.length → bytes[k]? = some ((s.storing dbuf reads rest).inst.dbufByte (start + k)))
      ∧ ∀ k, k < start ∨ start + bytes.length ≤ k → (s.storing dbuf reads rest).inst.dbufByte k = s.inst.dbufByte k := by
  by_cases hbytes : bytes = []
  · subst hbytes
    refine ⟨s.inst.dbuf, s.inst.out.reads, ?_, fun k hk => absurd hk (Nat.not_lt_zero k), fun _ _ => rfl⟩
    rw [storing_self (hhost.trans (List.nil_append rest))]
    rfl
  obtain ⟨hsize, -, -⟩ := dbufSize_of_wf hp
  obtain ⟨hwords, hspan⟩ := wordCount_inside hsize (List.length_pos_iff.2 hbytes) hinside
  rw [expandBytes_of_ne_nil hbytes] at hhost ⊢
  obtain ⟨dbuf, reads, hrun, hstored⟩ := stepN_wordsAccesses hp hturns hidle hwords hhost
  rw [length_wordsAccesses]
  refine ⟨dbuf, reads, hrun, fun k hk => ?_, fun k hk => ?_⟩
  · rw [hstored, if_pos (hspan (start + k) (by omega) (by omega)), directiveByte_of_inside _ _ hk]
  · rw [hstored, directiveByte_of_outside _ hk, ite_self]

/-- Both directives are runs of bytes inside the data buffer, `.dbuf` with its NUL (30_encoding.md R132). -/
theorem expandLine_of_directive {size start : Nat} {line : AsmLine} {bytes : List Byte} (hwf : line.wf size = true)
    (hline : line = .dbufb start bytes ∨ ∃ text, line = .dbuf start text ∧ bytes = text ++ [0x00]) (i : Instance) :
    expandLine i line = expandBytes i.dbufByte start bytes ∧ start + bytes.length ≤ size := by
  rcases hline with rfl | ⟨text, rfl, rfl⟩
  · exact ⟨rfl, of_decide_eq_true hwf⟩
  · refine ⟨rfl, ?_⟩
    rw [List.length_append]
    exact of_decide_eq_true hwf

/-- Settles O56: a directive's accesses rewrite whole words, in which only its own bytes are new. -/
theorem directiveLineStoresItsBytes : Obligations.DirectiveLineStoresItsBytes := by
  intro s line start bytes rest hp hwf hline hturns hidle hhost
  obtain ⟨hexpand, hinside⟩ := expandLine_of_directive hwf hline s.inst
  rw [hexpand] at hhost ⊢
  obtain ⟨dbuf, reads, hrun, hnew, hold⟩ := stepN_expandBytes hp hturns hidle hinside hhost
  exact ⟨_, hrun, hnew, hold, rfl⟩

end Sys2Proof.Machine
end
